-- ==== Sys2Proof/Word.lean ====
section
/-! DEFINITION. The value types of the spec (00_scope.md R7): bytes, 32-bit words, byte strings, and
the 16-byte block that keys, counters, chaining values and cipher blocks are. -/

namespace Sys2Proof

/-- R7: a byte, an unsigned integer 0 to 255. -/
abbrev Byte := BitVec 8

/-- R7: a 32-bit unsigned integer, bit 0 the least significant. -/
abbrev Word := BitVec 32

/-- R7: a byte string, first byte first. -/
abbrev Bytes := List Byte

/-- A byte string of length 16 (R13, R15, R16, R91): the string with the proof of its length. -/
structure Block where
  bytes : Bytes
  len : bytes.length = 16
deriving DecidableEq, Repr

/-- R7 `zeros(16)`. -/
def Block.zeros : Block := ⟨List.replicate 16 0, rfl⟩

end Sys2Proof
end

