-- ==== Sys2Proof/Syntax.lean ====
section
/-! DEFINITION. The twenty commands (30_encoding.md R71), one constructor per row of
spec/opcode_table.json, in the table's order. -/

namespace Sys2Proof

/-- A command with its fields (R70, R71). `ks` is the keystream-only flag KS (R73); `imm` is the
operand `n` of `cmd CTR_ADD #n` (R79), which R72 bounds by 255 (`Instr.wellFormed`). -/
inductive Instr where
  | ecbInitEnc
  | ecbInitDec
  | ecbEnc
  | ecbDec
  | sha256
  | ctrInit
  | ctrSet
  | ctrAdd (imm : Nat)
  | ctrBlock (ks : Bool)
  | ctrStream (ks : Bool)
  | cbcInitEnc
  | cbcInitDec
  | cbcEnc
  | cbcDec
  | rsaInit
  | rsaVerify
  | rsaRaw
  | rsaDerive
  | aesRelease
  | rsaRelease
deriving DecidableEq, Repr

end Sys2Proof
end

