-- ==== Sys2Proof/WellFormed.lean ====
section
/-! DEFINITION. Which commands have an encoding (30_encoding.md R72, R79). -/

namespace Sys2Proof

/-- R72: IMM8 is "an unsigned value 0 to 255", and every such value is legal. It is the only operand
of the command word that can be out of range: KS is one bit, and no other command has a field. -/
def Instr.wellFormed : Instr → Bool
  | .ctrAdd imm => decide (imm < 256)
  | .ecbInitEnc | .ecbInitDec | .ecbEnc | .ecbDec | .sha256 | .ctrInit | .ctrSet => true
  | .ctrBlock _ | .ctrStream _ => true
  | .cbcInitEnc | .cbcInitDec | .cbcEnc | .cbcDec => true
  | .rsaInit | .rsaVerify | .rsaRaw | .rsaDerive | .aesRelease | .rsaRelease => true

end Sys2Proof
end

