-- ==== Sys2Proof/Decode.lean ====
section
/-! DEFINITION. Decoding and encoding of the command word (30_encoding.md R70, R71, R74, R75).
A command is one 32-bit value written to CMD; there is no instruction memory, so no byte order is
involved. -/

namespace Sys2Proof

/-- Why a word is an illegal encoding (R74), in the order R75 tests. To the host they are one error
kind, `IllegalCommand`. -/
inductive IllegalEncoding where
  /-- `w[7:0]` is none of the twenty OPCODE values. -/
  | opcode
  /-- `w[31:24]` or `w[15:9]` is not zero. -/
  | reserved
  /-- `w[23:16]` is not zero in a command other than CTR_ADD. -/
  | imm8
  /-- `w[8]` is set in a command other than CTR_BLOCK and CTR_STREAM. -/
  | ks
deriving DecidableEq, Repr

/-- Bits 7:0, OPCODE (R70). -/
def fieldOpcode (w : Word) : Nat := w.toNat % 256

/-- Bit 8, KS (R70). -/
def fieldKs (w : Word) : Bool := w.toNat / 256 % 2 == 1

/-- Bits 15:9, RSV1 (R70). -/
def fieldRsv1 (w : Word) : Nat := w.toNat / 512 % 128

/-- Bits 23:16, IMM8 (R70). -/
def fieldImm8 (w : Word) : Nat := w.toNat / 65536 % 256

/-- Bits 31:24, RSV3 (R70). -/
def fieldRsv3 (w : Word) : Nat := w.toNat / 16777216

/-- The opcode map (R71): the command an OPCODE selects, its fields given. -/
def commandOf (op : Nat) (imm : Nat) (ks : Bool) : Option Instr :=
  match op with
  | 0x10 => some .ecbInitEnc
  | 0x11 => some .ecbInitDec
  | 0x12 => some .ecbEnc
  | 0x13 => some .ecbDec
  | 0x20 => some .sha256
  | 0x30 => some .ctrInit
  | 0x31 => some .ctrSet
  | 0x32 => some (.ctrAdd imm)
  | 0x33 => some (.ctrBlock ks)
  | 0x34 => some (.ctrStream ks)
  | 0x40 => some .cbcInitEnc
  | 0x41 => some .cbcInitDec
  | 0x42 => some .cbcEnc
  | 0x43 => some .cbcDec
  | 0x50 => some .rsaInit
  | 0x51 => some .rsaVerify
  | 0x52 => some .rsaRaw
  | 0x53 => some .rsaDerive
  | 0x60 => some .aesRelease
  | 0x61 => some .rsaRelease
  | _ => none

/-- `Decode(w)` (R75), total on every 32-bit word, reading no state. -/
def decode (w : Word) : Except IllegalEncoding Instr :=
  let op := fieldOpcode w
  let ks := fieldKs w
  let imm := fieldImm8 w
  match commandOf op imm ks with
  | none => .error .opcode
  | some i =>
    if fieldRsv3 w ≠ 0 ∨ fieldRsv1 w ≠ 0 then .error .reserved
    else if imm ≠ 0 ∧ op ≠ 0x32 then .error .imm8
    else if ks = true ∧ op ≠ 0x33 ∧ op ≠ 0x34 then .error .ks
    else .ok i

/-- The OPCODE of a command (R71). -/
def opcodeOf : Instr → Nat
  | .ecbInitEnc => 0x10
  | .ecbInitDec => 0x11
  | .ecbEnc => 0x12
  | .ecbDec => 0x13
  | .sha256 => 0x20
  | .ctrInit => 0x30
  | .ctrSet => 0x31
  | .ctrAdd _ => 0x32
  | .ctrBlock _ => 0x33
  | .ctrStream _ => 0x34
  | .cbcInitEnc => 0x40
  | .cbcInitDec => 0x41
  | .cbcEnc => 0x42
  | .cbcDec => 0x43
  | .rsaInit => 0x50
  | .rsaVerify => 0x51
  | .rsaRaw => 0x52
  | .rsaDerive => 0x53
  | .aesRelease => 0x60
  | .rsaRelease => 0x61

/-- The IMM8 field of a command, zero where it has none (R70, R72). -/
def imm8Of : Instr → Nat
  | .ctrAdd imm => imm
  | .ecbInitEnc | .ecbInitDec | .ecbEnc | .ecbDec | .sha256 | .ctrInit | .ctrSet => 0
  | .ctrBlock _ | .ctrStream _ => 0
  | .cbcInitEnc | .cbcInitDec | .cbcEnc | .cbcDec => 0
  | .rsaInit | .rsaVerify | .rsaRaw | .rsaDerive | .aesRelease | .rsaRelease => 0

/-- The KS bit of a command, zero where it has none (R70, R73). -/
def ksOf : Instr → Bool
  | .ctrBlock ks | .ctrStream ks => ks
  | .ecbInitEnc | .ecbInitDec | .ecbEnc | .ecbDec | .sha256 | .ctrInit | .ctrSet | .ctrAdd _ => false
  | .cbcInitEnc | .cbcInitDec | .cbcEnc | .cbcDec => false
  | .rsaInit | .rsaVerify | .rsaRaw | .rsaDerive | .aesRelease | .rsaRelease => false

/-- The command word of a well-formed command (R70, R71): OPCODE in 7:0, KS in 8, IMM8 in 23:16,
RSV1 and RSV3 zero. -/
def encode (i : Instr) : Word :=
  BitVec.ofNat 32 (opcodeOf i + 256 * (ksOf i).toNat + 65536 * imm8Of i)

/-- The command a table row's word `w` of `nbits` bits decodes to. Every row is one 32-bit word. -/
def decodeTableWord (nbits w : Nat) : Option Instr :=
  match decode (BitVec.ofNat 32 (w % 2 ^ nbits)) with
  | .ok i => some i
  | .error _ => none

end Sys2Proof
end

