-- ==== Sys2Proof/Machine/Bytes.lean ====
section
/-! DEFINITION. Byte strings and their big-endian integers (00_scope.md R7), and reading and building
16-byte blocks. -/

namespace Sys2Proof

/-- R7 `be(B)`: the integer a byte string spells big-endian; 0 for the empty string. -/
def be (b : Bytes) : Nat := b.foldl (fun acc x => acc * 256 + x.toNat) 0

/-- R7 `bytes_n(v)`: the `n`-byte big-endian string of `v`, which R7 defines for `v < 256^n`. -/
def bytesN : Nat → Nat → Bytes
  | 0, _ => []
  | n + 1, v => BitVec.ofNat 8 (v / 256 ^ n) :: bytesN n v

/-- R7 `B[i..j]`: the bytes with index `i` to `j - 1`. -/
def slice (b : Bytes) (i j : Nat) : Bytes := (b.drop i).take (j - i)

/-- R7 `A ^ B` on byte strings of one length. -/
def xorBytes (a b : Bytes) : Bytes := List.zipWith (fun x y => x ^^^ y) a b

/-- Byte `i` of a block, `X[i]` (R8); 0 past the end, which no rule reads. -/
def Block.get (b : Block) (i : Nat) : Byte := b.bytes.getD i 0

/-- The block whose byte `i` is `f i`. -/
def Block.build (f : Nat → Byte) : Block := ⟨(List.range 16).map f, by simp⟩

/-- R7 `A ^ B` on blocks. -/
def Block.xor (a b : Block) : Block := Block.build fun i => a.get i ^^^ b.get i

/-- `be` of a block (R15: the counter as an integer). -/
def Block.toNat (b : Block) : Nat := be b.bytes

/-- `bytes_16(v)` as a block. -/
def Block.ofNat (v : Nat) : Block := Block.build fun i => BitVec.ofNat 8 (v / 256 ^ (15 - i))

/-- Word `j` of a 16-byte register (20_memory.md R42): `be(X[4j..4j+4])`. -/
def Block.word (b : Block) (j : Nat) : Word := BitVec.ofNat 32 (be (slice b.bytes (4 * j) (4 * j + 4)))

/-- A 16-byte register with its word `j` replaced by `w` (20_memory.md R42, R44): bytes `4j` to
`4j + 3` are `bytes_4(w)`, the other three words stay. -/
def Block.setWord (b : Block) (j : Nat) (w : Word) : Block :=
  Block.build fun i => if i / 4 = j then BitVec.ofNat 8 (w.toNat / 256 ^ (3 - i % 4)) else b.get i

end Sys2Proof
end

