-- ==== Sys2Proof/Machine/Aes.lean ====
section
/-! DEFINITION. The AES-128 block cipher (40_aes_block.md R90 to R99): two total functions on a key and
a block, with no state. The spec supplies them from general knowledge (FIPS-197, 93 G2). -/

namespace Sys2Proof

/-! ### Bytes as elements of GF(2^8) (R92) -/

/-- Multiplication by 2, reduced by 0x11B. -/
def xtime (a : Byte) : Byte :=
  if a.msb then (a <<< 1) ^^^ 0x1B else a <<< 1

/-- The product `a • b`: the sum over the set bits `i` of `b`, from bit `i` on, of `xtime` applied `i`
times to `a`; `n` bits are looked at. -/
def gfMulFrom : Nat → Byte → Nat → Byte
  | 0, _, _ => 0
  | n + 1, a, b => (if b % 2 = 1 then a else 0) ^^^ gfMulFrom n (xtime a) (b / 2)

/-- R92 `a • b`. -/
def gfMul (a b : Byte) : Byte := gfMulFrom 8 a b.toNat

/-! ### The S-boxes (R93, R94) -/

/-- R93: the rows `0x` to `Fx` of the S-box table. -/
def sboxRows : List Bytes :=
  [[0x63, 0x7c, 0x77, 0x7b, 0xf2, 0x6b, 0x6f, 0xc5, 0x30, 0x01, 0x67, 0x2b, 0xfe, 0xd7, 0xab, 0x76]] ++
  [[0xca, 0x82, 0xc9, 0x7d, 0xfa, 0x59, 0x47, 0xf0, 0xad, 0xd4, 0xa2, 0xaf, 0x9c, 0xa4, 0x72, 0xc0]] ++
  [[0xb7, 0xfd, 0x93, 0x26, 0x36, 0x3f, 0xf7, 0xcc, 0x34, 0xa5, 0xe5, 0xf1, 0x71, 0xd8, 0x31, 0x15]] ++
  [[0x04, 0xc7, 0x23, 0xc3, 0x18, 0x96, 0x05, 0x9a, 0x07, 0x12, 0x80, 0xe2, 0xeb, 0x27, 0xb2, 0x75]] ++
  [[0x09, 0x83, 0x2c, 0x1a, 0x1b, 0x6e, 0x5a, 0xa0, 0x52, 0x3b, 0xd6, 0xb3, 0x29, 0xe3, 0x2f, 0x84]] ++
  [[0x53, 0xd1, 0x00, 0xed, 0x20, 0xfc, 0xb1, 0x5b, 0x6a, 0xcb, 0xbe, 0x39, 0x4a, 0x4c, 0x58, 0xcf]] ++
  [[0xd0, 0xef, 0xaa, 0xfb, 0x43, 0x4d, 0x33, 0x85, 0x45, 0xf9, 0x02, 0x7f, 0x50, 0x3c, 0x9f, 0xa8]] ++
  [[0x51, 0xa3, 0x40, 0x8f, 0x92, 0x9d, 0x38, 0xf5, 0xbc, 0xb6, 0xda, 0x21, 0x10, 0xff, 0xf3, 0xd2]] ++
  [[0xcd, 0x0c, 0x13, 0xec, 0x5f, 0x97, 0x44, 0x17, 0xc4, 0xa7, 0x7e, 0x3d, 0x64, 0x5d, 0x19, 0x73]] ++
  [[0x60, 0x81, 0x4f, 0xdc, 0x22, 0x2a, 0x90, 0x88, 0x46, 0xee, 0xb8, 0x14, 0xde, 0x5e, 0x0b, 0xdb]] ++
  [[0xe0, 0x32, 0x3a, 0x0a, 0x49, 0x06, 0x24, 0x5c, 0xc2, 0xd3, 0xac, 0x62, 0x91, 0x95, 0xe4, 0x79]] ++
  [[0xe7, 0xc8, 0x37, 0x6d, 0x8d, 0xd5, 0x4e, 0xa9, 0x6c, 0x56, 0xf4, 0xea, 0x65, 0x7a, 0xae, 0x08]] ++
  [[0xba, 0x78, 0x25, 0x2e, 0x1c, 0xa6, 0xb4, 0xc6, 0xe8, 0xdd, 0x74, 0x1f, 0x4b, 0xbd, 0x8b, 0x8a]] ++
  [[0x70, 0x3e, 0xb5, 0x66, 0x48, 0x03, 0xf6, 0x0e, 0x61, 0x35, 0x57, 0xb9, 0x86, 0xc1, 0x1d, 0x9e]] ++
  [[0xe1, 0xf8, 0x98, 0x11, 0x69, 0xd9, 0x8e, 0x94, 0x9b, 0x1e, 0x87, 0xe9, 0xce, 0x55, 0x28, 0xdf]] ++
  [[0x8c, 0xa1, 0x89, 0x0d, 0xbf, 0xe6, 0x42, 0x68, 0x41, 0x99, 0x2d, 0x0f, 0xb0, 0x54, 0xbb, 0x16]]

/-- R94: the rows `0x` to `Fx` of the inverse S-box table. -/
def invSboxRows : List Bytes :=
  [[0x52, 0x09, 0x6a, 0xd5, 0x30, 0x36, 0xa5, 0x38, 0xbf, 0x40, 0xa3, 0x9e, 0x81, 0xf3, 0xd7, 0xfb]] ++
  [[0x7c, 0xe3, 0x39, 0x82, 0x9b, 0x2f, 0xff, 0x87, 0x34, 0x8e, 0x43, 0x44, 0xc4, 0xde, 0xe9, 0xcb]] ++
  [[0x54, 0x7b, 0x94, 0x32, 0xa6, 0xc2, 0x23, 0x3d, 0xee, 0x4c, 0x95, 0x0b, 0x42, 0xfa, 0xc3, 0x4e]] ++
  [[0x08, 0x2e, 0xa1, 0x66, 0x28, 0xd9, 0x24, 0xb2, 0x76, 0x5b, 0xa2, 0x49, 0x6d, 0x8b, 0xd1, 0x25]] ++
  [[0x72, 0xf8, 0xf6, 0x64, 0x86, 0x68, 0x98, 0x16, 0xd4, 0xa4, 0x5c, 0xcc, 0x5d, 0x65, 0xb6, 0x92]] ++
  [[0x6c, 0x70, 0x48, 0x50, 0xfd, 0xed, 0xb9, 0xda, 0x5e, 0x15, 0x46, 0x57, 0xa7, 0x8d, 0x9d, 0x84]] ++
  [[0x90, 0xd8, 0xab, 0x00, 0x8c, 0xbc, 0xd3, 0x0a, 0xf7, 0xe4, 0x58, 0x05, 0xb8, 0xb3, 0x45, 0x06]] ++
  [[0xd0, 0x2c, 0x1e, 0x8f, 0xca, 0x3f, 0x0f, 0x02, 0xc1, 0xaf, 0xbd, 0x03, 0x01, 0x13, 0x8a, 0x6b]] ++
  [[0x3a, 0x91, 0x11, 0x41, 0x4f, 0x67, 0xdc, 0xea, 0x97, 0xf2, 0xcf, 0xce, 0xf0, 0xb4, 0xe6, 0x73]] ++
  [[0x96, 0xac, 0x74, 0x22, 0xe7, 0xad, 0x35, 0x85, 0xe2, 0xf9, 0x37, 0xe8, 0x1c, 0x75, 0xdf, 0x6e]] ++
  [[0x47, 0xf1, 0x1a, 0x71, 0x1d, 0x29, 0xc5, 0x89, 0x6f, 0xb7, 0x62, 0x0e, 0xaa, 0x18, 0xbe, 0x1b]] ++
  [[0xfc, 0x56, 0x3e, 0x4b, 0xc6, 0xd2, 0x79, 0x20, 0x9a, 0xdb, 0xc0, 0xfe, 0x78, 0xcd, 0x5a, 0xf4]] ++
  [[0x1f, 0xdd, 0xa8, 0x33, 0x88, 0x07, 0xc7, 0x31, 0xb1, 0x12, 0x10, 0x59, 0x27, 0x80, 0xec, 0x5f]] ++
  [[0x60, 0x51, 0x7f, 0xa9, 0x19, 0xb5, 0x4a, 0x0d, 0x2d, 0xe5, 0x7a, 0x9f, 0x93, 0xc9, 0x9c, 0xef]] ++
  [[0xa0, 0xe0, 0x3b, 0x4d, 0xae, 0x2a, 0xf5, 0xb0, 0xc8, 0xeb, 0xbb, 0x3c, 0x83, 0x53, 0x99, 0x61]] ++
  [[0x17, 0x2b, 0x04, 0x7e, 0xba, 0x77, 0xd6, 0x26, 0xe1, 0x69, 0x14, 0x63, 0x55, 0x21, 0x0c, 0x7d]]

/-- R93: `SBOX[a]` for `a = 0xRC` is at row `Rx`, column `xC`. -/
def sbox (a : Byte) : Byte := (sboxRows.getD (a.toNat / 16) []).getD (a.toNat % 16) 0

/-- R94: `INVSBOX[a]`. -/
def invSbox (a : Byte) : Byte := (invSboxRows.getD (a.toNat / 16) []).getD (a.toNat % 16) 0

/-! ### Key expansion (R95) -/

/-- R95 `RCON`. -/
def rcon : Bytes := [0x01, 0x02, 0x04, 0x08, 0x10, 0x20, 0x40, 0x80, 0x1B, 0x36]

/-- R95 RotWord. -/
def rotWord (t : Bytes) : Bytes := t.drop 1 ++ t.take 1

/-- R95 SubWord. -/
def subWord (t : Bytes) : Bytes := t.map sbox

/-- The `t` of R95 for word `i`, from the words before it. -/
def keyTemp (w : List Bytes) (i : Nat) : Bytes :=
  let t := w.getD (i - 1) []
  if i % 4 = 0 then xorBytes (subWord (rotWord t)) [rcon.getD (i / 4 - 1) 0, 0, 0, 0] else t

/-- `n` more words of the key expansion, each from the words before it. -/
def expandFrom : Nat → List Bytes → List Bytes
  | 0, w => w
  | n + 1, w => expandFrom n (w ++ [xorBytes (w.getD (w.length - 4) []) (keyTemp w w.length)])

/-- R95: the 44 words `w[0]` to `w[43]` of a key. -/
def expandKey (k : Block) : List Bytes :=
  expandFrom 40 [slice k.bytes 0 4, slice k.bytes 4 8, slice k.bytes 8 12, slice k.bytes 12 16]

/-- R95 `RoundKey(K, r)`, from the expanded words. -/
def roundKey (w : List Bytes) (r : Nat) : Block :=
  Block.build fun i => (w.getD (4 * r + i / 4) []).getD (i % 4) 0

/-! ### The transformations (R96, R97), byte index `r + 4c` for row `r`, column `c` -/

def subBytes (s : Block) : Block := Block.build fun i => sbox (s.get i)

/-- R96: row `r` is rotated left by `r`. -/
def shiftRows (s : Block) : Block :=
  Block.build fun i => s.get (i % 4 + 4 * ((i / 4 + i % 4) % 4))

/-- Row `r` of a matrix product with column `c` of the state: the bytes of the column times the four
coefficients, added. -/
def mixByte (s : Block) (c : Nat) (k0 k1 k2 k3 : Byte) : Byte :=
  gfMul (s.get (4 * c)) k0 ^^^ gfMul (s.get (4 * c + 1)) k1 ^^^
    gfMul (s.get (4 * c + 2)) k2 ^^^ gfMul (s.get (4 * c + 3)) k3

/-- R96 MixColumns. -/
def mixColumns (s : Block) : Block :=
  Block.build fun i =>
    match i % 4 with
    | 0 => mixByte s (i / 4) 2 3 1 1
    | 1 => mixByte s (i / 4) 1 2 3 1
    | 2 => mixByte s (i / 4) 1 1 2 3
    | _ => mixByte s (i / 4) 3 1 1 2

/-- R96 AddRoundKey. -/
def addRoundKey (s rk : Block) : Block := s.xor rk

def invSubBytes (s : Block) : Block := Block.build fun i => invSbox (s.get i)

/-- R97: row `r` is rotated right by `r`. -/
def invShiftRows (s : Block) : Block :=
  Block.build fun i => s.get (i % 4 + 4 * ((i / 4 + 4 - i % 4) % 4))

/-- R97 InvMixColumns. -/
def invMixColumns (s : Block) : Block :=
  Block.build fun i =>
    match i % 4 with
    | 0 => mixByte s (i / 4) 0x0E 0x0B 0x0D 0x09
    | 1 => mixByte s (i / 4) 0x09 0x0E 0x0B 0x0D
    | 2 => mixByte s (i / 4) 0x0D 0x09 0x0E 0x0B
    | _ => mixByte s (i / 4) 0x0B 0x0D 0x09 0x0E

/-! ### The cipher and its inverse (R98, R99) -/

/-- R98: `n` full rounds, the first of them round `r`. -/
def encRounds (w : List Bytes) : Nat → Nat → Block → Block
  | 0, _, s => s
  | n + 1, r, s =>
    encRounds w n (r + 1) (addRoundKey (mixColumns (shiftRows (subBytes s))) (roundKey w r))

/-- R98 `AES_Enc(K, X)`: nine full rounds, then a last one without MixColumns. -/
def aesEnc (k x : Block) : Block :=
  let w := expandKey k
  let s := encRounds w 9 1 (addRoundKey x (roundKey w 0))
  addRoundKey (shiftRows (subBytes s)) (roundKey w 10)

/-- R99: the rounds `r` down to 1. -/
def decRounds (w : List Bytes) : Nat → Block → Block
  | 0, s => s
  | r + 1, s =>
    decRounds w r
      (invMixColumns (addRoundKey (invSubBytes (invShiftRows s)) (roundKey w (r + 1))))

/-- R99 `AES_Dec(K, Y)`. -/
def aesDec (k y : Block) : Block :=
  let w := expandKey k
  let s := decRounds w 9 (addRoundKey y (roundKey w 10))
  addRoundKey (invSubBytes (invShiftRows s)) (roundKey w 0)

end Sys2Proof
end

