-- ==== Sys2Proof/Config.lean ====
section
/-! DEFINITION. The parameters of the hardware (00_scope.md R6) and of the platform it stands on
(20_memory.md R50). The spec leaves one of them open, `Backed`; the state holds it
(`State.backed`), and `Config.testPlatform` is only its value at `State.reset`. -/

namespace Sys2Proof

/-- A range of buffer-memory addresses the platform backs with plain memory (R50): the addresses
`base` to `base + size - 1`. -/
structure Region where
  base : Nat
  size : Nat
deriving DecidableEq, Repr

namespace Config

/-- R6, R40: the number of buffer-memory addresses, `2^ADDR_BITS` with `ADDR_BITS = 32`. -/
def addrSpace : Nat := 4294967296

/-- R6, R211: the length of the key record, 0x498 bytes. -/
def keyRecordLen : Nat := 1176

/-- R6 (D33): `ELEN_MAX`, the longest public exponent field. -/
def elenMax : Nat := 8

/-- R6, R211 (D33): the slot size of D, in bytes. -/
def dSlot : Nat := 256

/-- R6, R211 (D33): the slot size of P, Q, DP, DQ and QP, in bytes. -/
def primeSlot : Nat := 128

/-- R6: the modulus length, exactly 2048 bits. -/
def modulusBits : Nat := 2048

/-- R6, R182 (D45): the Montgomery radix, `2^2048`. -/
def montRadix : Nat := 2 ^ 2048

/-- DESIGN CHOICE (log entry 2), unsafe: the platform at `State.reset` is the one the spec's own test
vectors use, `Backed(a)` exactly for `a < 0x00010000` (95_test_vectors.md, conventions). -/
def testPlatform : List Region := [⟨0, 0x10000⟩]

/-- DESIGN CHOICE (log entry 1), unsafe: what a byte of buffer memory that no entry lists reads as.
The spec gives "any value" (U26); its test vectors start from zeros. -/
def unlistedByte : Byte := 0

end Config

end Sys2Proof
end

