-- ==== Sys2Proof/Machine/State.lean ====
section
/-! DEFINITION. The state of one CTRCORE instance (10_state.md R11, R13 to R26), of the buffer memory
it shares with its host (20_memory.md R50), and of the model's own host interface; its value after
reset (R29); and the reasons a step can stop. -/

namespace Sys2Proof.Machine

/-- MODE (10_state.md R14): which engine the AES sub-state was initialised for. The codes 6 and 7 are
never held (93 U12). -/
inductive Mode where
  | none
  | ecbEnc
  | ecbDec
  | ctr
  | cbcEnc
  | cbcDec
deriving DecidableEq, Repr

/-- RSAST (10_state.md R24): the state of the RSA context. The code 3 is never held. -/
inductive RsaState where
  | uninit
  | valid
  | invalid
deriving DecidableEq, Repr

/-- The seven error kinds (60_exceptions.md R260). -/
inductive ErrorKind where
  | uninitializedKey
  | keyValidationFailed
  | invalidInputSize
  | paddingOrDigestMismatch
  | modularInverseUndefined
  | illegalCommand
  | accessFault
deriving DecidableEq, Repr

/-- One action of the host (10_state.md R10): a register access of `width` bits at an offset of the
register window, a read or write of buffer memory between commands, or reset. -/
inductive HostAction where
  | regRead (width offset : Nat)
  | regWrite (width offset : Nat) (value : Word)
  | memLoad (addr n : Nat)
  | memStore (addr : Nat) (bytes : Bytes)
  | reset
deriving DecidableEq, Repr

/-- What the host's bus answered to the last action: the MODEL's own record (log entry 4). -/
inductive Reply where
  /-- no action yet -/
  | idle
  /-- a write or a reset took place -/
  | done
  /-- the word a register read returned -/
  | data (v : Word)
  /-- the bytes a read of buffer memory returned -/
  | bytes (b : Bytes)
  /-- the error response of a refused register access (20_memory.md R41, 60_exceptions.md R270) -/
  | refused
deriving DecidableEq, Repr

/-- Buffer memory (20_memory.md R50): the bytes that differ from `Config.unlistedByte`, by address,
in the canonical form `Memory.wf` of Machine/Ops.lean. -/
abbrev Memory := List Host.Cell

structure State where
  /-- R13 -/
  key : Block
  /-- R14 -/
  mode : Mode
  /-- R15; `ctr.bytes[0]` is the most significant byte -/
  ctr : Block
  /-- R16, R17 -/
  iv : Block
  /-- R18 -/
  keyin : Block
  /-- R19 -/
  vecin : Block
  /-- R20 -/
  src : Word
  /-- R20 -/
  dst : Word
  /-- R20 -/
  len : Word
  /-- R20 -/
  keyptr : Word
  /-- R20 -/
  aux : Word
  /-- STATUS.OK, R22 -/
  ok : Bool
  /-- ERR, R23: `none` is the code 0 -/
  err : Option ErrorKind
  /-- R24 -/
  rsast : RsaState
  /-- N, R25 -/
  rsaN : BitVec 2048
  /-- E, R25 -/
  rsaE : BitVec 64
  /-- D, R25 -/
  rsaD : BitVec 2048
  /-- P, R25 -/
  rsaP : BitVec 1024
  /-- Q, R25 -/
  rsaQ : BitVec 1024
  /-- DP, R25 -/
  rsaDP : BitVec 1024
  /-- DQ, R25 -/
  rsaDQ : BitVec 1024
  /-- QP, R25 -/
  rsaQP : BitVec 1024
  /-- HASPRIV, R26 -/
  hasPriv : Bool
  /-- HASCRT, R26 -/
  hasCrt : Bool
  /-- buffer memory, R50 (the platform's) -/
  mem : Memory
  /-- the platform's `Backed`, R50, as regions; no step changes it -/
  backed : List Region
  /-- the host's coming actions, first first (R12); the MODEL's own (log entry 3) -/
  queue : List HostAction
  /-- the bus's answer to the last action; the MODEL's own (log entry 4) -/
  reply : Reply
deriving DecidableEq, Repr

/-- Why the machine stops. No command of the hardware can stop it (60_exceptions.md R265, R268). -/
inductive Fault where
  /-- Raised by the host's own `memLoad` or `memStore` over a range the platform does not back: the
  spec gives no byte there (20_memory.md R50) and says nothing of how the host reaches buffer memory
  (R40). Safe: the model stops where the spec is silent. -/
  | hostRangeUnbacked
deriving DecidableEq, Repr

/-- Why a command has no meaning in the model. -/
inductive Refusal where
  /-- Raised by an arm of `exec` whose command has no meaning yet. Safe: the model stops. No arm uses
  it. -/
  | notModelled (mnemonic : String)
deriving DecidableEq, Repr

/-- The machine right after reset (10_state.md R29, 70_reset_and_hazards.md R290), on the platform
`Config.testPlatform` (log entry 2), buffer memory with nothing listed (log entry 1), no host action
pending (log entry 3). -/
def State.reset : State where
  key := Block.zeros
  mode := .none
  ctr := Block.zeros
  iv := Block.zeros
  keyin := Block.zeros
  vecin := Block.zeros
  src := 0
  dst := 0
  len := 0
  keyptr := 0
  aux := 0
  ok := false
  err := .none
  rsast := .uninit
  rsaN := 0
  rsaE := 0
  rsaD := 0
  rsaP := 0
  rsaQ := 0
  rsaDP := 0
  rsaDQ := 0
  rsaQP := 0
  hasPriv := false
  hasCrt := false
  mem := []
  backed := Config.testPlatform
  queue := []
  reply := .idle

end Sys2Proof.Machine
end

