-- ==== Sys2Proof/Machine/Flags.lean ====
section
/-! DEFINITION. The status words the host reads (10_state.md R22, R23; 60_exceptions.md R260). -/

namespace Sys2Proof.Machine

/-- The code of MODE in STATUS[6:4] (R14). -/
def Mode.code : Mode → Nat
  | .none => 0
  | .ecbEnc => 1
  | .ecbDec => 2
  | .ctr => 3
  | .cbcEnc => 4
  | .cbcDec => 5

/-- The code of RSAST in STATUS[9:8] (R24). -/
def RsaState.code : RsaState → Nat
  | .uninit => 0
  | .valid => 1
  | .invalid => 2

/-- The code of an error kind in ERR[3:0] (R260). -/
def ErrorKind.code : ErrorKind → Nat
  | .uninitializedKey => 1
  | .keyValidationFailed => 2
  | .invalidInputSize => 3
  | .paddingOrDigestMismatch => 4
  | .modularInverseUndefined => 5
  | .illegalCommand => 6
  | .accessFault => 7

/-- STATUS (R22): bit 0 OK, bits 6:4 MODE, bits 9:8 RSAST, every other bit 0, BUSY included. -/
def State.statusWord (s : State) : Word :=
  BitVec.ofNat 32 (s.ok.toNat + 16 * s.mode.code + 256 * s.rsast.code)

/-- ERR (R23): the code of the last error in bits 3:0, 0 when there is none. -/
def State.errWord (s : State) : Word :=
  match s.err with
  | none => 0
  | some k => BitVec.ofNat 32 k.code

end Sys2Proof.Machine
end

