-- ==== Sys2Proof/Machine/Ops.lean ====
section
/-! DEFINITION. The shared operations of the machine: buffer memory (20_memory.md R50 to R53), the end
of a command with or without an error (60_exceptions.md R262 to R264: all that this hardware has in
the place of taking an exception and returning from one, R267), and the named updates of the state
that the commands are made of. -/

namespace Sys2Proof.Machine

/-! ### Buffer memory -/

/-- The byte at address `a`. -/
def Memory.read : Memory → Nat → Byte
  | [], _ => Config.unlistedByte
  | c :: m, a => if c.1 = a then c.2 else Memory.read m a

/-- `c` put before the first entry of a higher address. -/
def Memory.insert (c : Host.Cell) : Memory → Memory
  | [] => [c]
  | d :: m => if c.1 < d.1 then c :: d :: m else d :: Memory.insert c m

/-- One byte stored (R53). Storing what an unlisted address reads as removes the entry, so that equal
memories are equal lists. -/
def Memory.write (m : Memory) (a : Nat) (v : Byte) : Memory :=
  let rest := m.filter fun c => decide (c.1 ≠ a)
  if v = Config.unlistedByte then rest else Memory.insert (a, v) rest

/-- The canonical form: addresses strictly rising, no entry equal to what an unlisted address reads
as. -/
def Memory.wf : Memory → Bool
  | [] => true
  | c :: m =>
    decide (c.2 ≠ Config.unlistedByte) && m.all (fun d => decide (c.1 < d.1)) && Memory.wf m

/-- R52 `MemRead(a, n)`: the `n` bytes at `a` to `a + n - 1`. -/
def Memory.readBytes (m : Memory) (a n : Nat) : Bytes := (List.range n).map fun i => m.read (a + i)

/-- R53 `MemWrite(a, len v, v)`: lowest address first (R8). -/
def Memory.writeBytes : Memory → Nat → Bytes → Memory
  | m, _, [] => m
  | m, a, b :: bs => Memory.writeBytes (m.write a b) (a + 1) bs

/-- `MemRead(a, 16)` as a block. -/
def Memory.readBlock (m : Memory) (a : Nat) : Block := Block.build fun i => m.read (a + i)

/-- `MemWrite(a, 16, b)`. -/
def Memory.writeBlock (m : Memory) (a : Nat) (b : Block) : Memory := m.writeBytes a b.bytes

/-- `Backed(a)` (R50). -/
def isBacked (backed : List Region) (a : Nat) : Bool :=
  backed.any fun r => decide (r.base ≤ a) && decide (a < r.base + r.size)

/-- `Backed(a + i)` for every `i` in `0 .. n`. -/
def allBacked (backed : List Region) (a : Nat) : Nat → Bool
  | 0 => true
  | n + 1 => isBacked backed a && allBacked backed (a + 1) n

/-- R51 `RangeOK(a, n)`: true for `n = 0` whatever `a` is; otherwise the range does not run past
`2^32` and every byte of it is backed. -/
def rangeOK (backed : List Region) (a n : Nat) : Bool :=
  n == 0 || (decide (a + n ≤ Config.addrSpace) && allBacked backed a n)

/-! ### How a command ends -/

/-- R262, normal end: `STATUS.OK <- 1; ERR <- 0`. -/
def State.finish (s : State) : State := { s with ok := true, err := none }

/-- R262, `raise Kind`: `STATUS.OK <- 0; ERR <- code(Kind)`. Nothing is saved and nothing is
redirected (R267). -/
def State.raise (s : State) (k : ErrorKind) : State := { s with ok := false, err := some k }

/-- The end of a command that met the error `e`, or none (R262). -/
def State.endWith (s : State) : Option ErrorKind → State
  | none => s.finish
  | some k => s.raise k

/-- R264: the first check that fails decides the error kind. -/
def firstError : List (Option ErrorKind) → Option ErrorKind
  | [] => none
  | none :: rest => firstError rest
  | some k :: _ => some k

/-- A command: its checks of admission, size and ranges in the order of R264, all before any change
(R263); then its body, which says the state it reaches and the error it met on its content, if any;
then the end of R262. A command always reaches a next state (R265, R268). -/
def State.command (s : State) (checks : List (Option ErrorKind))
    (body : State → State × Option ErrorKind) : Host.Outcome State Fault Refusal :=
  match firstError checks with
  | some k => .next (s.raise k)
  | none => .next ((body s).1.endWith (body s).2)

/-! ### Named updates of the state -/

def State.setMem (s : State) (m : Memory) : State := { s with mem := m }

def State.setCtr (s : State) (c : Block) : State := { s with ctr := c }

def State.setIv (s : State) (v : Block) : State := { s with iv := v }

/-- What the five AES init commands share: `KEY <- KEYIN; MODE <- m` (R101, R102, R140, R160,
R161). -/
def State.initAes (s : State) (m : Mode) : State := { s with key := s.keyin, mode := m }

/-- R253: the AES sub-state and the staging registers cleared. -/
def State.releaseAes (s : State) : State :=
  { s with
    key := Block.zeros, ctr := Block.zeros, iv := Block.zeros
    keyin := Block.zeros, vecin := Block.zeros, mode := .none }

/-- R218 `ReleaseRSA()`, R254. -/
def State.releaseRsa (s : State) : State :=
  { s with
    rsaN := 0, rsaE := 0, rsaD := 0, rsaP := 0, rsaQ := 0, rsaDP := 0, rsaDQ := 0, rsaQP := 0
    hasPriv := false, hasCrt := false, rsast := .uninit }

/-- RSAST, HASPRIV and HASCRT written together (R213). -/
def State.setRsaStatus (s : State) (r : RsaState) (priv crt : Bool) : State :=
  { s with rsast := r, hasPriv := priv, hasCrt := crt }

/-- The CRT registers written and HASCRT set (R221). -/
def State.setCrt (s : State) (dp dq qp : Nat) : State :=
  { s with
    rsaDP := BitVec.ofNat 1024 dp, rsaDQ := BitVec.ofNat 1024 dq, rsaQP := BitVec.ofNat 1024 qp
    hasCrt := true }

def State.setReply (s : State) (r : Reply) : State := { s with reply := r }

def State.setQueue (s : State) (q : List HostAction) : State := { s with queue := q }

/-- R290: every register of the instance at its reset value; buffer memory and the platform stay as
they are, and so does what the host does next. -/
def State.resetRegisters (s : State) : State :=
  { State.reset with mem := s.mem, backed := s.backed, queue := s.queue, reply := s.reply }

end Sys2Proof.Machine
end

