-- ==== Sys2Proof/Machine/Operands.lean ====
section
/-! DEFINITION. The operand forms: the register window (20_memory.md R41 to R44), the checks every
command makes on its operands (46_context.md R255, 60_exceptions.md R264), and the walk over blocks
in buffer memory (20_memory.md R57, R65). -/

namespace Sys2Proof.Machine

/-! ### The register window -/

/-- The 24 mapped words of the register map (R43); `keyin j` is word `j` of KEYIN, and so on. -/
inductive Reg where
  | cmd
  | status
  | err
  | src
  | dst
  | len
  | keyptr
  | aux
  | keyin (j : Nat)
  | vecin (j : Nat)
  | ctr (j : Nat)
  | iv (j : Nat)
deriving DecidableEq, Repr

/-- The register map (R43): what stands at an offset; nothing at any other offset. -/
def regAt : Nat → Option Reg
  | 0x00 => some .cmd
  | 0x04 => some .status
  | 0x08 => some .err
  | 0x0C => some .src
  | 0x10 => some .dst
  | 0x14 => some .len
  | 0x18 => some .keyptr
  | 0x1C => some .aux
  | 0x20 => some (.keyin 0)
  | 0x24 => some (.keyin 1)
  | 0x28 => some (.keyin 2)
  | 0x2C => some (.keyin 3)
  | 0x30 => some (.vecin 0)
  | 0x34 => some (.vecin 1)
  | 0x38 => some (.vecin 2)
  | 0x3C => some (.vecin 3)
  | 0x40 => some (.ctr 0)
  | 0x44 => some (.ctr 1)
  | 0x48 => some (.ctr 2)
  | 0x4C => some (.ctr 3)
  | 0x50 => some (.iv 0)
  | 0x54 => some (.iv 1)
  | 0x58 => some (.iv 2)
  | 0x5C => some (.iv 3)
  | _ => none

/-- R41: the register an access reaches, none where the access is refused (a width other than 32
bits, or an offset the map does not list). -/
def regOfAccess (width offset : Nat) : Option Reg := if width = 32 then regAt offset else none

/-- What a host read of a register returns (R43, R44): write-only registers read as 0. -/
def State.readReg (s : State) : Reg → Word
  | .cmd => 0
  | .status => s.statusWord
  | .err => s.errWord
  | .src => s.src
  | .dst => s.dst
  | .len => s.len
  | .keyptr => s.keyptr
  | .aux => s.aux
  | .keyin _ => 0
  | .vecin j => s.vecin.word j
  | .ctr j => s.ctr.word j
  | .iv j => s.iv.word j

/-- What a host write does to the registers (R43, R44): writes to STATUS, ERR, CTR and IV are
ignored. CMD stores nothing (10_state.md R21); the command it runs is `runCommand`'s. -/
def State.writeReg (s : State) (r : Reg) (v : Word) : State :=
  match r with
  | .cmd => s
  | .status => s
  | .err => s
  | .src => { s with src := v }
  | .dst => { s with dst := v }
  | .len => { s with len := v }
  | .keyptr => { s with keyptr := v }
  | .aux => { s with aux := v }
  | .keyin j => { s with keyin := s.keyin.setWord j v }
  | .vecin j => { s with vecin := s.vecin.setWord j v }
  | .ctr _ => s
  | .iv _ => s

/-! ### Checks -/

/-- Admission of an AES init command (R252): only in MODE = NONE. -/
def initCheck (s : State) : Option ErrorKind :=
  if s.mode = .none then none else some .illegalCommand

/-- Admission of a command that uses the AES sub-state in MODE `m` (R255): "never initialised" is
tested before "initialised for something else" (R264). -/
def useCheck (m : Mode) (s : State) : Option ErrorKind :=
  if s.mode = .none then some .uninitializedKey
  else if s.mode ≠ m then some .illegalCommand
  else none

/-- Admission of the RSA commands that need a free RSA sub-state (R210, R252). -/
def rsaFreeCheck (s : State) : Option ErrorKind :=
  if s.rsast = .uninit then none else some .illegalCommand

/-- Admission of RSA_DERIVE (R221). -/
def deriveCheck (s : State) : Option ErrorKind :=
  match s.rsast with
  | .uninit => some .uninitializedKey
  | .invalid => some .keyValidationFailed
  | .valid => if s.hasPriv = false then some .uninitializedKey else none

/-- The size contract of the block commands (R103, R162). -/
def sizeCheck (s : State) : Option ErrorKind :=
  if s.len.toNat % 16 ≠ 0 then some .invalidInputSize else none

/-- The range check of a command: every range `(address, length)` it will touch (R51, R263). -/
def rangeCheck (s : State) (ranges : List (Nat × Nat)) : Option ErrorKind :=
  if ranges.all (fun r => rangeOK s.backed r.1 r.2) then none else some .accessFault

/-! ### The walk over blocks -/

/-- A block-walking command over `n` blocks from block `i` on (R57, R65): for each block in ascending
order it fetches the input, computes, writes the 16 output bytes, and only then goes on. `x` is the
value the engine carries from block to block. -/
def walkBlocks {σ α : Type} (fetch : Memory → Nat → α) (f : σ → α → Block × σ) (dst : Nat) :
    Nat → Nat → Memory → σ → Memory × σ
  | 0, _, m, x => (m, x)
  | n + 1, i, m, x =>
    let r := f x (fetch m i)
    walkBlocks fetch f dst n (i + 1) (m.writeBlock (dst + 16 * i) r.1) r.2

/-- The input of block `i` of a buffer at `src`: `MemRead(src + 16i, 16)`. -/
def fetchBlock (src : Nat) (m : Memory) (i : Nat) : Block := m.readBlock (src + 16 * i)

end Sys2Proof.Machine
end

