-- ==== Sys2Proof/Machine/Ecb.lean ====
section
/-! DEFINITION. The ECB commands (40_aes_block.md R101 to R105). -/

namespace Sys2Proof.Machine

/-- R101 ECB_INIT_ENC. -/
def execEcbInitEnc (s : State) : Host.Outcome State Fault Refusal :=
  s.command [initCheck s] fun s => (s.initAes .ecbEnc, none)

/-- R102 ECB_INIT_DEC. -/
def execEcbInitDec (s : State) : Host.Outcome State Fault Refusal :=
  s.command [initCheck s] fun s => (s.initAes .ecbDec, none)

/-- The body ECB_ENC and ECB_DEC share: each block through `cipher`, independently. -/
def ecbBody (cipher : Block → Block) (s : State) : State :=
  s.setMem (walkBlocks (fetchBlock s.src.toNat) (fun u x => (cipher x, u)) s.dst.toNat
    (s.len.toNat / 16) 0 s.mem ()).1

/-- The checks ECB_ENC, ECB_DEC, CBC_ENC and CBC_DEC share, in the order of R264: admission in MODE
`m`, size, ranges (R104, R105, R163, R164). -/
def blockChecks (m : Mode) (s : State) : List (Option ErrorKind) :=
  [useCheck m s, sizeCheck s,
    rangeCheck s [(s.src.toNat, s.len.toNat), (s.dst.toNat, s.len.toNat)]]

/-- R104 ECB_ENC. -/
def execEcbEnc (s : State) : Host.Outcome State Fault Refusal :=
  s.command (blockChecks .ecbEnc s) fun s => (ecbBody (aesEnc s.key) s, none)

/-- R105 ECB_DEC. -/
def execEcbDec (s : State) : Host.Outcome State Fault Refusal :=
  s.command (blockChecks .ecbDec s) fun s => (ecbBody (aesDec s.key) s, none)

end Sys2Proof.Machine
end

