-- ==== Sys2Proof/Machine/Cbc.lean ====
section
/-! DEFINITION. The CBC chain controller (43_cbc.md R160 to R164). The checks of its two block commands
are those of the ECB ones (`blockChecks`). -/

namespace Sys2Proof.Machine

/-- R160 CBC_INIT_ENC. -/
def execCbcInitEnc (s : State) : Host.Outcome State Fault Refusal :=
  s.command [initCheck s] fun s => ((s.initAes .cbcEnc).setIv s.vecin, none)

/-- R161 CBC_INIT_DEC. -/
def execCbcInitDec (s : State) : Host.Outcome State Fault Refusal :=
  s.command [initCheck s] fun s => ((s.initAes .cbcDec).setIv s.vecin, none)

/-- R163, one block: the ciphertext block is the output and the next chaining value. -/
def cbcEncStep (key iv p : Block) : Block × Block :=
  let c := aesEnc key (p.xor iv)
  (c, c)

/-- R164, one block: the next chaining value is the ciphertext block just read. -/
def cbcDecStep (key iv c : Block) : Block × Block := ((aesDec key c).xor iv, c)

/-- The body CBC_ENC and CBC_DEC share: the blocks in order, the chaining value carried in IV. -/
def cbcBody (f : Block → Block → Block × Block) (s : State) : State :=
  let r := walkBlocks (fetchBlock s.src.toNat) f s.dst.toNat (s.len.toNat / 16) 0 s.mem s.iv
  (s.setMem r.1).setIv r.2

/-- R163 CBC_ENC. -/
def execCbcEnc (s : State) : Host.Outcome State Fault Refusal :=
  s.command (blockChecks .cbcEnc s) fun s => (cbcBody (cbcEncStep s.key) s, none)

/-- R164 CBC_DEC. -/
def execCbcDec (s : State) : Host.Outcome State Fault Refusal :=
  s.command (blockChecks .cbcDec s) fun s => (cbcBody (cbcDecStep s.key) s, none)

end Sys2Proof.Machine
end

