-- ==== Sys2Proof/Machine/Context.lean ====
section
/-! DEFINITION. The release commands (46_context.md R253, R254): admitted in every state, no errors. -/

namespace Sys2Proof.Machine

/-- R253 AES_RELEASE. -/
def execAesRelease (s : State) : Host.Outcome State Fault Refusal :=
  s.command [] fun s => (s.releaseAes, none)

/-- R254 RSA_RELEASE. -/
def execRsaRelease (s : State) : Host.Outcome State Fault Refusal :=
  s.command [] fun s => (s.releaseRsa, none)

end Sys2Proof.Machine
end

