-- ==== Sys2Proof/Machine/Counter.lean ====
section
/-! DEFINITION. The counter and the keystream block (42_ctr.md R141, R144). -/

namespace Sys2Proof

/-- R141, the loop on the bytes from the least significant on: each byte takes the carry, the carry
out of the last is dropped. -/
def addCarry : Bytes → Nat → Bytes
  | [], _ => []
  | c :: cs, carry =>
    BitVec.ofNat 8 ((c.toNat + carry) % 256) :: addCarry cs ((c.toNat + carry) / 256)

theorem addCarry_length (cs : Bytes) (v : Nat) : (addCarry cs v).length = cs.length := by
  induction cs generalizing v with
  | nil => rfl
  | cons c cs ih => simp [addCarry, ih]

/-- R141 `AddCounter(C, v)`: byte 15 is the least significant, byte 0 the most significant. -/
def addCounter (c : Block) (v : Nat) : Block :=
  ⟨(addCarry c.bytes.reverse v).reverse, by simp [addCarry_length, c.len]⟩

/-- R144: the output block and the new counter of `CryptBlock(X)`; `none` is the null input. The
counter encrypted is the value before the increment. -/
def cryptBlock (key ctr : Block) (x : Option Block) : Block × Block :=
  let stream := aesEnc key ctr
  let out := match x with
    | none => stream
    | some b => stream.xor b
  (out, addCounter ctr 1)

end Sys2Proof
end

