-- ==== Sys2Proof/Machine/Ctr.lean ====
section
/-! DEFINITION. The counter-mode commands (42_ctr.md R140 to R146). -/

namespace Sys2Proof.Machine

/-- R140 CTR_INIT. -/
def execCtrInit (s : State) : Host.Outcome State Fault Refusal :=
  s.command [initCheck s] fun s => ((s.initAes .ctr).setCtr s.vecin, none)

/-- R142 CTR_SET. -/
def execCtrSet (s : State) : Host.Outcome State Fault Refusal :=
  s.command [useCheck .ctr s] fun s => (s.setCtr s.vecin, none)

/-- R143 CTR_ADD. -/
def execCtrAdd (imm : Nat) (s : State) : Host.Outcome State Fault Refusal :=
  s.command [useCheck .ctr s] fun s => (s.setCtr (addCounter s.ctr imm), none)

/-- The ranges of a counter-mode command over `n` bytes (R145, R146): with KS = 1 no input range is
checked. -/
def ctrRanges (ks : Bool) (n : Nat) (s : State) : List (Nat × Nat) :=
  if ks then [(s.dst.toNat, n)] else [(s.src.toNat, n), (s.dst.toNat, n)]

/-- The input of block `i`: null with KS = 1, otherwise the block at `src + 16i` (R73, R145, R146). -/
def fetchInput (ks : Bool) (src : Nat) (m : Memory) (i : Nat) : Option Block :=
  if ks then none else some (fetchBlock src m i)

/-- `n` full blocks of CryptBlock from the state's SRC, DST and CTR (R145, R146): memory and
counter. -/
def ctrBlocks (ks : Bool) (n : Nat) (s : State) : Memory × Block :=
  walkBlocks (fetchInput ks s.src.toNat) (cryptBlock s.key) s.dst.toNat n 0 s.mem s.ctr

/-- R145 CTR_BLOCK: always 16 bytes, LEN is ignored. -/
def execCtrBlock (ks : Bool) (s : State) : Host.Outcome State Fault Refusal :=
  s.command [useCheck .ctr s, rangeCheck s (ctrRanges ks 16 s)] fun s =>
    ((s.setMem (ctrBlocks ks 1 s).1).setCtr (ctrBlocks ks 1 s).2, none)

/-- The tail of CTR_STREAM (R146): one more keystream block from a zero input, of which the first `r`
bytes are used, at the byte offset `off` of the buffers; CTR advances once. -/
def ctrTail (ks : Bool) (off r : Nat) (s : State) : State :=
  let sc := cryptBlock s.key s.ctr (some Block.zeros)
  let stream := sc.1.bytes.take r
  let out := if ks then stream else xorBytes stream (s.mem.readBytes (s.src.toNat + off) r)
  (s.setMem (s.mem.writeBytes (s.dst.toNat + off) out)).setCtr sc.2

/-- The body of CTR_STREAM (R146): the full blocks, then the tail if there is one. -/
def ctrStreamBody (ks : Bool) (s : State) : State :=
  let q := s.len.toNat / 16
  let r := s.len.toNat % 16
  let t := (s.setMem (ctrBlocks ks q s).1).setCtr (ctrBlocks ks q s).2
  if r ≠ 0 then ctrTail ks (16 * q) r t else t

/-- R146 CTR_STREAM. -/
def execCtrStream (ks : Bool) (s : State) : Host.Outcome State Fault Refusal :=
  s.command [useCheck .ctr s, rangeCheck s (ctrRanges ks s.len.toNat s)] fun s =>
    (ctrStreamBody ks s, none)

end Sys2Proof.Machine
end

