-- ==== Sys2Proof/Machine/Sha256.lean ====
section
/-! DEFINITION. SHA-256 (41_sha256.md R120 to R127): a pure function of a byte string. The spec supplies
it from general knowledge (FIPS 180-4, 93 G3). -/

namespace Sys2Proof

/-- R121 `ROTR(x, n)`, `0 < n < 32`. -/
def rotr (x : Word) (n : Nat) : Word := (x >>> n) ||| (x <<< (32 - n))

/-- R121 `SHR(x, n)`. -/
def shr (x : Word) (n : Nat) : Word := x >>> n

/-- R122. -/
def shaCh (x y z : Word) : Word := (x &&& y) ^^^ (~~~x &&& z)

/-- R122. -/
def shaMaj (x y z : Word) : Word := (x &&& y) ^^^ (x &&& z) ^^^ (y &&& z)

/-- R122 BSIG0. -/
def bsig0 (x : Word) : Word := rotr x 2 ^^^ rotr x 13 ^^^ rotr x 22

/-- R122 BSIG1. -/
def bsig1 (x : Word) : Word := rotr x 6 ^^^ rotr x 11 ^^^ rotr x 25

/-- R122 SSIG0. -/
def ssig0 (x : Word) : Word := rotr x 7 ^^^ rotr x 18 ^^^ shr x 3

/-- R122 SSIG1. -/
def ssig1 (x : Word) : Word := rotr x 17 ^^^ rotr x 19 ^^^ shr x 10

/-- R123: the 64 round constants `K[0]` to `K[63]`. -/
def shaK : List Word :=
  [0x428a2f98, 0x71374491, 0xb5c0fbcf, 0xe9b5dba5, 0x3956c25b, 0x59f111f1, 0x923f82a4, 0xab1c5ed5] ++
  [0xd807aa98, 0x12835b01, 0x243185be, 0x550c7dc3, 0x72be5d74, 0x80deb1fe, 0x9bdc06a7, 0xc19bf174] ++
  [0xe49b69c1, 0xefbe4786, 0x0fc19dc6, 0x240ca1cc, 0x2de92c6f, 0x4a7484aa, 0x5cb0a9dc, 0x76f988da] ++
  [0x983e5152, 0xa831c66d, 0xb00327c8, 0xbf597fc7, 0xc6e00bf3, 0xd5a79147, 0x06ca6351, 0x14292967] ++
  [0x27b70a85, 0x2e1b2138, 0x4d2c6dfc, 0x53380d13, 0x650a7354, 0x766a0abb, 0x81c2c92e, 0x92722c85] ++
  [0xa2bfe8a1, 0xa81a664b, 0xc24b8b70, 0xc76c51a3, 0xd192e819, 0xd6990624, 0xf40e3585, 0x106aa070] ++
  [0x19a4c116, 0x1e376c08, 0x2748774c, 0x34b0bcb5, 0x391c0cb3, 0x4ed8aa4a, 0x5b9cca4f, 0x682e6ff3] ++
  [0x748f82ee, 0x78a5636f, 0x84c87814, 0x8cc70208, 0x90befffa, 0xa4506ceb, 0xbef9a3f7, 0xc67178f2]

/-- The eight words of a hash value, and the eight working variables `a` to `h` (R124, R126). -/
structure HashValue where
  a : Word
  b : Word
  c : Word
  d : Word
  e : Word
  f : Word
  g : Word
  h : Word
deriving DecidableEq, Repr

/-- R124 `H0`. -/
def shaH0 : HashValue :=
  ⟨0x6a09e667, 0xbb67ae85, 0x3c6ef372, 0xa54ff53a, 0x510e527f, 0x9b05688c, 0x1f83d9ab, 0x5be0cd19⟩

/-- R125 `Pad(M)`; `(55 − L) mod 64` zero bytes stand between the 0x80 and the length in bits. -/
def shaPad (m : Bytes) : Bytes :=
  m ++ [0x80] ++ List.replicate ((64 + 55 - m.length % 64) % 64) 0 ++ bytesN 8 (8 * m.length)

/-- R121 `word(B, t)`. -/
def shaWord (b : Bytes) (t : Nat) : Word := BitVec.ofNat 32 (be (slice b (4 * t) (4 * t + 4)))

/-- `n` more words of the message schedule, each from the words before it (R126). -/
def extendSchedule : Nat → List Word → List Word
  | 0, ws => ws
  | n + 1, ws =>
    let t := ws.length
    extendSchedule n
      (ws ++ [ssig1 (ws.getD (t - 2) 0) + ws.getD (t - 7) 0 + ssig0 (ws.getD (t - 15) 0) +
        ws.getD (t - 16) 0])

/-- R126: the message schedule `W[0]` to `W[63]` of a block. -/
def shaSchedule (b : Bytes) : List Word := extendSchedule 48 ((List.range 16).map (shaWord b))

/-- One round of R126 with the round constant `k` and the schedule word `w`; the assignments use the
values from before the round. -/
def shaRound (v : HashValue) (k w : Word) : HashValue :=
  let t1 := v.h + bsig1 v.e + shaCh v.e v.f v.g + k + w
  let t2 := bsig0 v.a + shaMaj v.a v.b v.c
  ⟨t1 + t2, v.a, v.b, v.c, v.d + t1, v.e, v.f, v.g⟩

/-- The rounds of R126, one for each pair of a round constant and a schedule word. -/
def shaRounds : List Word → List Word → HashValue → HashValue
  | k :: ks, w :: ws, v => shaRounds ks ws (shaRound v k w)
  | _, _, v => v

/-- R126 `Compress(H, B)`. -/
def shaCompress (hv : HashValue) (b : Bytes) : HashValue :=
  let v := shaRounds shaK (shaSchedule b) hv
  ⟨hv.a + v.a, hv.b + v.b, hv.c + v.c, hv.d + v.d, hv.e + v.e, hv.f + v.f, hv.g + v.g, hv.h + v.h⟩

/-- R127: the 64-byte blocks of the padded message `p`, in order, compressed into the hash value. -/
def shaBlocks (p : Bytes) (hv : HashValue) : HashValue :=
  (List.range (p.length / 64)).foldl
    (fun h i => shaCompress h (slice p (64 * i) (64 * i + 64))) hv

/-- R127: the eight words, four bytes each. -/
def HashValue.toBytes (v : HashValue) : Bytes :=
  [v.a, v.b, v.c, v.d, v.e, v.f, v.g, v.h].flatMap fun w => bytesN 4 w.toNat

/-- R127 `SHA256(M)`. -/
def sha256 (m : Bytes) : Bytes := (shaBlocks (shaPad m) shaH0).toBytes

end Sys2Proof
end

