-- ==== Sys2Proof/Machine/Hash.lean ====
section
/-! DEFINITION. The SHA256 command (41_sha256.md R128). -/

namespace Sys2Proof.Machine

/-- R128 SHA256: admitted in every MODE and RSAST; the whole message is read before the digest is
written. -/
def execSha256 (s : State) : Host.Outcome State Fault Refusal :=
  s.command [rangeCheck s [(s.src.toNat, s.len.toNat), (s.dst.toNat, 32)]] fun s =>
    (s.setMem (s.mem.writeBytes s.dst.toNat (sha256 (s.mem.readBytes s.src.toNat s.len.toNat))),
      none)

end Sys2Proof.Machine
end

