-- ==== Sys2Proof/Machine/BigInt.lean ====
section
/-! DEFINITION. Big integers, the Montgomery multiplier, modular exponentiation and the modular inverse
(44_bigint_montgomery.md R180 to R188). Integers are mathematical non-negative integers (R180); Lean's
`Nat` gives addition, multiplication, `mod`, comparison and `gcd` exactly (R181). -/

namespace Sys2Proof

/-- R7 `bitlen(a)`. -/
def bitlen (a : Nat) : Nat := if a = 0 then 0 else Nat.log2 a + 1

/-- R181 `lcm(a, b) = a·b / gcd(a, b)`. -/
def lcmOf (a b : Nat) : Nat := a * b / Nat.gcd a b

/-! ### Modular inverse (R188) -/

/-- The loop of the extended Euclidean algorithm (R188), at most `fuel` times: the last `r0` and `t0`.
`r1` falls at every turn, so a `fuel` above the first `r1` is never used up. -/
def euclid : Nat → Nat → Nat → Int → Int → Nat × Int
  | 0, r0, _, t0, _ => (r0, t0)
  | fuel + 1, r0, r1, t0, t1 =>
    if r1 = 0 then (r0, t0)
    else euclid fuel r1 (r0 - r0 / r1 * r1) t1 (t0 - ((r0 / r1 : Nat) : Int) * t1)

/-- R188 `ModInv(a, m)`; `none` where the inverse does not exist, and for `m < 2`. -/
def modInv (a m : Nat) : Option Nat :=
  if m < 2 then none
  else
    let r := euclid (m + 1) m (a % m) 0 1
    if r.1 ≠ 1 then none else some (r.2 % (m : Int)).toNat

/-! ### Montgomery multiplier (R182 to R184) -/

/-- R182 `NPRIME = (−N⁻¹) mod R`, for a radix `r` and an odd `n`; with `r = 2^w` the `n0` of R184. -/
def montNPrime (r n : Nat) : Nat :=
  match modInv n r with
  | none => 0
  | some x => (r - x) % r

/-- R183 `MontMul(a, b, N)` for the radix `r` and `np = NPRIME`. -/
def montMul (r np n a b : Nat) : Nat :=
  let t := a * b
  let m := t % r * np % r
  let u := (t + m * n) / r
  if n ≤ u then u - n else u

/-- R184: the words `i` on of the word-serial multiplier, `words` of them, `w` bits each. -/
def montMulLoop (w n0 n a b : Nat) : Nat → Nat → Nat → Nat
  | 0, _, t => t
  | words + 1, i, t =>
    let t1 := t + a / 2 ^ (w * i) % 2 ^ w * b
    let m := t1 % 2 ^ w * n0 % 2 ^ w
    montMulLoop w n0 n a b words (i + 1) ((t1 + m * n) / 2 ^ w)

/-- R184: the word-serial multiplier for the word width `w = MONT_W` over `bits / w` words (`bits` is
2048 in the hardware). `MONT_W` has no architectural effect; no command uses this form. -/
def montMulWords (bits w n a b : Nat) : Nat :=
  let t := montMulLoop w (montNPrime (2 ^ w) n) n a b (bits / w) 0 0
  if n ≤ t then t - n else t

/-! ### Modular exponentiation (R186, R187) -/

/-- R186 `ModExp(s, E, N)`, the architectural definition: `s^E mod N`. -/
def modExp (s e n : Nat) : Nat := s ^ e % n

/-- The loop of R187: the bits `i - 1` down to 0 of `e`, from the accumulator `acc`. -/
def modExpLoop (r np n e xbar : Nat) : Nat → Nat → Nat
  | 0, acc => acc
  | i + 1, acc =>
    let sq := montMul r np n acc acc
    modExpLoop r np n e xbar i (if e / 2 ^ i % 2 = 1 then montMul r np n sq xbar else sq)

/-- R187 with the radix `r`: left-to-right binary exponentiation in Montgomery form. -/
def modExpMont (r s e n : Nat) : Nat :=
  let np := montNPrime r n
  let r2 := r * r % n
  let xbar := montMul r np n (s % n) r2
  montMul r np n (modExpLoop r np n e xbar (bitlen e) (r % n)) 1

/-- R187: the engine's procedure, with the radix of R182. -/
def modExpEngine (s e n : Nat) : Nat := modExpMont Config.montRadix s e n

end Sys2Proof
end

