-- ==== Sys2Proof/Machine/RsaKey.lean ====
section
/-! DEFINITION. The RSA key record, its validation and its load (45_rsa.md R211 to R215), and the
encoded message of a signature (R217). -/

namespace Sys2Proof.Machine

/-- R212: what a well-formed key record yields: the eight integers (an absent field is 0) and the six
presence bits. -/
structure KeyRecord where
  n : Nat
  e : Nat
  d : Nat
  p : Nat
  q : Nat
  dp : Nat
  dq : Nat
  qp : Nat
  hasD : Bool
  hasP : Bool
  hasQ : Bool
  hasDP : Bool
  hasDQ : Bool
  hasQP : Bool
deriving DecidableEq, Repr

/-- A 16-bit length field of the record header (R211), big-endian. -/
def lenField (rec : Bytes) (off : Nat) : Nat := be (slice rec off (off + 2))

/-- The first `n` bytes of the slot at `off`, as an integer (R211, R212). -/
def slotValue (rec : Bytes) (off n : Nat) : Nat := be (slice rec off (off + n))

/-- R212: the conditions under which a record parses: VALID is 0x01, the reserved halfword is zero, and
every length is within its slot. -/
def recordWellFormed (rec : Bytes) : Bool :=
  slotValue rec 0x000 1 == 1 && lenField rec 0x00E == 0 &&
    decide (1 ≤ slotValue rec 0x001 1) && decide (slotValue rec 0x001 1 ≤ Config.elenMax) &&
    decide (lenField rec 0x002 ≤ Config.dSlot) &&
    decide (lenField rec 0x004 ≤ Config.primeSlot) && decide (lenField rec 0x006 ≤ Config.primeSlot) &&
    decide (lenField rec 0x008 ≤ Config.primeSlot) && decide (lenField rec 0x00A ≤ Config.primeSlot) &&
    decide (lenField rec 0x00C ≤ Config.primeSlot)

/-- R212: the fields of a record (R211), each the first `len` bytes of its slot. -/
def recordFields (rec : Bytes) : KeyRecord where
  n := slotValue rec 0x010 256
  e := slotValue rec 0x110 (slotValue rec 0x001 1)
  d := slotValue rec 0x118 (lenField rec 0x002)
  p := slotValue rec 0x218 (lenField rec 0x004)
  q := slotValue rec 0x298 (lenField rec 0x006)
  dp := slotValue rec 0x318 (lenField rec 0x008)
  dq := slotValue rec 0x398 (lenField rec 0x00A)
  qp := slotValue rec 0x418 (lenField rec 0x00C)
  hasD := decide (0 < lenField rec 0x002)
  hasP := decide (0 < lenField rec 0x004)
  hasQ := decide (0 < lenField rec 0x006)
  hasDP := decide (0 < lenField rec 0x008)
  hasDQ := decide (0 < lenField rec 0x00A)
  hasQP := decide (0 < lenField rec 0x00C)

/-- R212 `ParseKeyRecord(rec)`; `none` where it fails. -/
def parseKeyRecord (rec : Bytes) : Option KeyRecord :=
  if recordWellFormed rec then some (recordFields rec) else none

/-- R214 `PublicCheck(N, E)`. -/
def publicCheck (n e : Nat) : Bool :=
  bitlen n == Config.modulusBits && n % 2 == 1 && e % 2 == 1 && decide (3 ≤ e)

/-- R215 `PrivateCheck`: `none` where it fails, otherwise HASPRIV and HASCRT. -/
def privateCheck (r : KeyRecord) : Option (Bool × Bool) :=
  if !r.hasD && !r.hasP && !r.hasQ && !r.hasDP && !r.hasDQ && !r.hasQP then some (false, false)
  else if !(r.hasD && r.hasP && r.hasQ) then none
  else
    let crt := r.hasDP || r.hasDQ || r.hasQP
    if crt && !(r.hasDP && r.hasDQ && r.hasQP) then none
    else if r.p < 2 || r.q < 2 then none
    else if r.p * r.q ≠ r.n then none
    else if r.d * r.e % lcmOf (r.p - 1) (r.q - 1) ≠ 1 then none
    else if crt && decide (r.dp ≠ r.d % (r.p - 1)) then none
    else if crt && decide (r.dq ≠ r.d % (r.q - 1)) then none
    else if crt && (decide (r.p ≤ r.qp) || decide (r.qp * r.q % r.p ≠ 1)) then none
    else some (true, crt)

/-- R213: the parsed integers in the big-integer registers. -/
def State.loadFields (s : State) (r : KeyRecord) : State :=
  { s with
    rsaN := BitVec.ofNat 2048 r.n, rsaE := BitVec.ofNat 64 r.e, rsaD := BitVec.ofNat 2048 r.d
    rsaP := BitVec.ofNat 1024 r.p, rsaQ := BitVec.ofNat 1024 r.q
    rsaDP := BitVec.ofNat 1024 r.dp, rsaDQ := BitVec.ofNat 1024 r.dq
    rsaQP := BitVec.ofNat 1024 r.qp }

/-- R213, after the parse: the registers are loaded, and RSAST, HASPRIV and HASCRT say what the two
checks found. -/
def State.acceptKey (s : State) (r : KeyRecord) : State × Option ErrorKind :=
  if publicCheck r.n r.e then
    match privateCheck r with
    | none => ((s.loadFields r).setRsaStatus .invalid false false, some .keyValidationFailed)
    | some (priv, crt) => ((s.loadFields r).setRsaStatus .valid priv crt, none)
  else ((s.loadFields r).setRsaStatus .invalid false false, some .keyValidationFailed)

/-- R213 `LoadKey(a)`: the state it leaves and the error it raises, if any. -/
def State.loadKey (s : State) (a : Nat) : State × Option ErrorKind :=
  match parseKeyRecord (s.mem.readBytes a Config.keyRecordLen) with
  | none => (s, some .uninitializedKey)
  | some r => s.acceptKey r

/-! ### The encoded message (R217) -/

/-- R217 DIGESTINFO, 19 bytes. -/
def digestInfo : Bytes :=
  [0x30, 0x31, 0x30, 0x0d, 0x06, 0x09, 0x60, 0x86, 0x48, 0x01, 0x65, 0x03, 0x04, 0x02, 0x01, 0x05,
    0x00, 0x04, 0x20]

/-- R217 `EM(h)`. -/
def encodedMessage (h : Bytes) : Bytes :=
  [0x00, 0x01] ++ List.replicate 202 0xFF ++ [0x00] ++ digestInfo ++ h

/-- R219, R220: `bytes_256(ModExp(be(MemRead(a, 256)), E, N))` with the loaded N and E, computed by the
engine of R187. -/
def State.publicTransform (s : State) (a : Nat) : Bytes :=
  bytesN 256 (modExpEngine (be (s.mem.readBytes a 256)) s.rsaE.toNat s.rsaN.toNat)

end Sys2Proof.Machine
end

