-- ==== Sys2Proof/Machine/Rsa.lean ====
section
/-! DEFINITION. The RSA commands (45_rsa.md R216 to R221). -/

namespace Sys2Proof.Machine

/-- R216 RSA_INIT. -/
def execRsaInit (s : State) : Host.Outcome State Fault Refusal :=
  s.command [rsaFreeCheck s, rangeCheck s [(s.keyptr.toNat, Config.keyRecordLen)]] fun s =>
    s.loadKey s.keyptr.toNat

/-- R219 RSA_VERIFY: a transient load, released on every path; the error it ends with is the load's, or
the mismatch. -/
def execRsaVerify (s : State) : Host.Outcome State Fault Refusal :=
  s.command
    [rsaFreeCheck s, rangeCheck s [(s.keyptr.toNat, Config.keyRecordLen), (s.src.toNat, 256),
      (s.aux.toNat, 32)]] fun s =>
    let l := s.loadKey s.keyptr.toNat
    match l.2 with
    | some k => (l.1.releaseRsa, some k)
    | none =>
      let em := l.1.publicTransform s.src.toNat
      (l.1.releaseRsa,
        if em = encodedMessage (s.mem.readBytes s.aux.toNat 32) then none
        else some .paddingOrDigestMismatch)

/-- R220 RSA_RAW: a transient load, released on every path; the 256 bytes are written last. -/
def execRsaRaw (s : State) : Host.Outcome State Fault Refusal :=
  s.command
    [rsaFreeCheck s, rangeCheck s [(s.keyptr.toNat, Config.keyRecordLen), (s.src.toNat, 256),
      (s.dst.toNat, 256)]] fun s =>
    let l := s.loadKey s.keyptr.toNat
    match l.2 with
    | some k => (l.1.releaseRsa, some k)
    | none =>
      let out := l.1.publicTransform s.src.toNat
      (l.1.releaseRsa.setMem (s.mem.writeBytes s.dst.toNat out), none)

/-- R221, after its checks: DP, DQ and QP from D, P and Q, committed to the registers and written to
DST, or the error and no change where Q has no inverse modulo P. -/
def deriveBody (s : State) : State × Option ErrorKind :=
  let dp := s.rsaD.toNat % (s.rsaP.toNat - 1)
  let dq := s.rsaD.toNat % (s.rsaQ.toNat - 1)
  match modInv s.rsaQ.toNat s.rsaP.toNat with
  | none => (s, some .modularInverseUndefined)
  | some qp =>
    ((s.setCrt dp dq qp).setMem
      (s.mem.writeBytes s.dst.toNat (bytesN 128 dp ++ bytesN 128 dq ++ bytesN 128 qp)), none)

/-- R221 RSA_DERIVE. -/
def execRsaDerive (s : State) : Host.Outcome State Fault Refusal :=
  s.command [deriveCheck s, rangeCheck s [(s.dst.toNat, 384)]] deriveBody

end Sys2Proof.Machine
end

