-- ==== Sys2Proof/Machine/Dispatch.lean ====
section
/-! DEFINITION. The meaning of each of the twenty commands (30_encoding.md R71), one arm each. -/

namespace Sys2Proof.Machine

def exec (i : Instr) (s : State) : Host.Outcome State Fault Refusal :=
  match i with
  | .ecbInitEnc => Sys2Proof.Machine.execEcbInitEnc s
  | .ecbInitDec => Sys2Proof.Machine.execEcbInitDec s
  | .ecbEnc => Sys2Proof.Machine.execEcbEnc s
  | .ecbDec => Sys2Proof.Machine.execEcbDec s
  | .sha256 => Sys2Proof.Machine.execSha256 s
  | .ctrInit => Sys2Proof.Machine.execCtrInit s
  | .ctrSet => Sys2Proof.Machine.execCtrSet s
  | .ctrAdd imm => Sys2Proof.Machine.execCtrAdd imm s
  | .ctrBlock ks => Sys2Proof.Machine.execCtrBlock ks s
  | .ctrStream ks => Sys2Proof.Machine.execCtrStream ks s
  | .cbcInitEnc => Sys2Proof.Machine.execCbcInitEnc s
  | .cbcInitDec => Sys2Proof.Machine.execCbcInitDec s
  | .cbcEnc => Sys2Proof.Machine.execCbcEnc s
  | .cbcDec => Sys2Proof.Machine.execCbcDec s
  | .rsaInit => Sys2Proof.Machine.execRsaInit s
  | .rsaVerify => Sys2Proof.Machine.execRsaVerify s
  | .rsaRaw => Sys2Proof.Machine.execRsaRaw s
  | .rsaDerive => Sys2Proof.Machine.execRsaDerive s
  | .aesRelease => Sys2Proof.Machine.execAesRelease s
  | .rsaRelease => Sys2Proof.Machine.execRsaRelease s

end Sys2Proof.Machine
end

