-- ==== Sys2Proof/Machine/HostActions.lean ====
section
/-! DEFINITION. What one action of the host does (10_state.md R10): a register access (20_memory.md R41
to R44), the command a CMD write runs (30_encoding.md R70, R74), reset (70_reset_and_hazards.md R290),
and the host's own access to buffer memory between commands (R10; log entry 6). -/

namespace Sys2Proof.Machine

/-- R70, R74: the command a word written to CMD encodes; an illegal encoding ends at once with
`IllegalCommand` and changes nothing else. -/
def runCommand (w : Word) (s : State) : Host.Outcome State Fault Refusal :=
  match Sys2Proof.decode w with
  | .ok i => exec i s
  | .error _ => .next (s.raise .illegalCommand)

/-- R10 RegRead, R41: the word read, or the refusal of the access; no register changes (R44). -/
def regRead (width offset : Nat) (s : State) : Reply :=
  match regOfAccess width offset with
  | none => .refused
  | some r => .data (s.readReg r)

/-- R10 RegWrite. A refused access changes no register (R41); a write to CMD runs a command; any other
sets its register (R44). The bus answers either way (log entry 7). -/
def regWrite (width offset : Nat) (v : Word) (s : State) : Host.Outcome State Fault Refusal :=
  match regOfAccess width offset with
  | none => .next (s.setReply .refused)
  | some .cmd => runCommand v (s.setReply .done)
  | some r => .next ((s.writeReg r v).setReply .done)

/-- One action of the host. -/
def perform (a : HostAction) (s : State) : Host.Outcome State Fault Refusal :=
  match a with
  | .regRead width offset => .next (s.setReply (regRead width offset s))
  | .regWrite width offset v => regWrite width offset v s
  | .memLoad addr n =>
    if rangeOK s.backed addr n then .next (s.setReply (.bytes (s.mem.readBytes addr n)))
    else .fault .hostRangeUnbacked
  | .memStore addr bytes =>
    if rangeOK s.backed addr bytes.length then
      .next ((s.setMem (s.mem.writeBytes addr bytes)).setReply .done)
    else .fault .hostRangeUnbacked
  | .reset => .next (s.resetRegisters.setReply .done)

/-- The host's next action, taken from the list of its coming actions (R12); with none pending nothing
happens, since the core never acts on its own (R10). -/
def hostStep (s : State) : Host.Outcome State Fault Refusal :=
  match s.queue with
  | [] => .next s
  | a :: rest => perform a (s.setQueue rest)

/-- The host action that runs the command word `w` of `nbits` bits: a 32-bit write to CMD at offset
0x00 (R21, R43, R70). -/
def commandWrite (nbits w : Nat) : HostAction := .regWrite 32 0x00 (BitVec.ofNat 32 (w % 2 ^ nbits))

end Sys2Proof.Machine
end

