-- ==== Sys2Proof/Machine/Step.lean ====
section
/-! DEFINITION. One step of the machine: the host's next action, run to its end (10_state.md R10, R12;
20_memory.md R60). -/

namespace Sys2Proof.Machine

/-- One step: the host's next action. -/
def step (s : State) : Host.Outcome State Fault Refusal := hostStep s

/-- `s` with the write of the command word `w` to CMD as the host's very next action; what the host
does after it stays as it was (log entry 3). -/
def State.withFetchWord (s : State) (nbits w : Nat) : State :=
  s.setQueue (commandWrite nbits w :: s.queue)

end Sys2Proof.Machine
end

