-- ==== Sys2Proof/Safety.lean ====
section
/-! DEFINITION. The terms in which claims about the machine are made: the relations between the fields
of the state that every step keeps, what a host may ask of buffer memory, the admission table of
46_context.md R255, the byte layout of a key record (45_rsa.md R211), and what two states have in
common. No meaning uses any of it. -/

namespace Sys2Proof.Machine

/-! ### Invariants of the state -/

/-- Every listed byte of buffer memory is at an address that exists (20_memory.md R50, R51). -/
def Memory.within (backed : List Region) (m : Memory) : Bool :=
  m.all fun c => decide (c.1 < Config.addrSpace) && isBacked backed c.1

/-- Buffer memory is in its canonical form and lies within the platform's memory. -/
structure State.MemInv (s : State) : Prop where
  canonical : s.mem.wf = true
  within : s.mem.within s.backed = true

/-- What the AES sub-state holds in each MODE: all zero until an init command (46_context.md R250),
and never a value in the register of an engine other than the one initialised (10_state.md R17). -/
structure State.AesInv (s : State) : Prop where
  fresh : s.mode = .none → s.key = Block.zeros
  ctrUnused : s.mode ≠ .ctr → s.ctr = Block.zeros
  ivUnused : s.mode ≠ .cbcEnc → s.mode ≠ .cbcDec → s.iv = Block.zeros

/-- The RSA sub-state with no key in it (10_state.md R24, R26; 45_rsa.md R218). -/
structure State.RsaZero (s : State) : Prop where
  n : s.rsaN = 0
  e : s.rsaE = 0
  d : s.rsaD = 0
  p : s.rsaP = 0
  q : s.rsaQ = 0
  dp : s.rsaDP = 0
  dq : s.rsaDQ = 0
  qp : s.rsaQP = 0
  priv : s.hasPriv = false
  crt : s.hasCrt = false

/-- The relations 10_state.md R24, R26 and R27 state between RSAST, HASPRIV, HASCRT and the
big-integer registers. -/
structure State.RsaInv (s : State) : Prop where
  uninit : s.rsast = .uninit → s.RsaZero
  crtPriv : s.hasCrt = true → s.hasPriv = true
  privValid : s.hasPriv = true → s.rsast = .valid
  validPublic : s.rsast = .valid →
    bitlen s.rsaN.toNat = 2048 ∧ s.rsaN.toNat % 2 = 1 ∧ s.rsaE.toNat % 2 = 1 ∧ 3 ≤ s.rsaE.toNat
  privPrimes : s.hasPriv = true → s.rsaN.toNat = s.rsaP.toNat * s.rsaQ.toNat
  privExponent : s.hasPriv = true →
    s.rsaD.toNat * s.rsaE.toNat ≡ 1 [MOD Nat.lcm (s.rsaP.toNat - 1) (s.rsaQ.toNat - 1)]
  crtDP : s.hasCrt = true → s.rsaDP.toNat = s.rsaD.toNat % (s.rsaP.toNat - 1)
  crtDQ : s.hasCrt = true → s.rsaDQ.toNat = s.rsaD.toNat % (s.rsaQ.toNat - 1)
  crtQP : s.hasCrt = true →
    s.rsaQP.toNat < s.rsaP.toNat ∧ s.rsaQP.toNat * s.rsaQ.toNat ≡ 1 [MOD s.rsaP.toNat]

/-! ### Runs that meet no fault -/

/-- What the platform can answer of the host's own accesses to buffer memory: those within backed
memory. Every other action is always answered. -/
def HostAction.withinPlatform (backed : List Region) : HostAction → Bool
  | .memLoad addr n => rangeOK backed addr n
  | .memStore addr bytes => rangeOK backed addr bytes.length
  | .regRead _ _ | .regWrite _ _ _ | .reset => true

/-! ### Buffers -/

/-- Two buffers of `n` bytes that coincide or do not overlap (20_memory.md R57). -/
def sameOrDisjoint (src dst n : Nat) : Prop := dst = src ∨ src + n ≤ dst ∨ dst + n ≤ src

/-- Every byte of buffer memory outside the `n` bytes at `a` reads in `m'` as in `m`. -/
def sameOutside (a n : Nat) (m m' : Memory) : Prop :=
  ∀ b, b < a ∨ a + n ≤ b → m'.read b = m.read b

/-! ### Admission (R255) -/

/-- The letters of the table of R255. -/
inductive Admission where
  | ok
  | u
  | k
  | i
deriving DecidableEq, Repr

/-- The rows of the first table of R255: the columns are NONE, ECB_ENC, ECB_DEC, CTR, CBC_ENC,
CBC_DEC. -/
def aesAdmission : Instr → Option (List Admission)
  | .ecbInitEnc | .ecbInitDec | .ctrInit | .cbcInitEnc | .cbcInitDec => some [.ok, .i, .i, .i, .i, .i]
  | .ecbEnc => some [.u, .ok, .i, .i, .i, .i]
  | .ecbDec => some [.u, .i, .ok, .i, .i, .i]
  | .ctrSet | .ctrAdd _ | .ctrBlock _ | .ctrStream _ => some [.u, .i, .i, .ok, .i, .i]
  | .cbcEnc => some [.u, .i, .i, .i, .ok, .i]
  | .cbcDec => some [.u, .i, .i, .i, .i, .ok]
  | .aesRelease => some [.ok, .ok, .ok, .ok, .ok, .ok]
  | .sha256 | .rsaInit | .rsaVerify | .rsaRaw | .rsaDerive | .rsaRelease => none

/-- The rows of the second table of R255: the columns are UNINIT, VALID, INVALID. -/
def rsaAdmission (hasPriv : Bool) : Instr → Option (List Admission)
  | .rsaInit | .rsaVerify | .rsaRaw => some [.ok, .i, .i]
  | .rsaDerive => some [.u, if hasPriv then .ok else .u, .k]
  | .rsaRelease => some [.ok, .ok, .ok]
  | .ecbInitEnc | .ecbInitDec | .ecbEnc | .ecbDec | .sha256 => none
  | .ctrInit | .ctrSet | .ctrAdd _ | .ctrBlock _ | .ctrStream _ => none
  | .cbcInitEnc | .cbcInitDec | .cbcEnc | .cbcDec | .aesRelease => none

/-- R255: the AES part depends on MODE only, the RSA part on the RSA sub-state only; SHA256 is admitted
in every state. -/
def admission (i : Instr) (s : State) : Admission :=
  match aesAdmission i with
  | some row => row.getD s.mode.code .ok
  | none =>
    match rsaAdmission s.hasPriv i with
    | some row => row.getD s.rsast.code .ok
    | none => .ok

/-- The error kind a letter of R255 stands for. -/
def Admission.error : Admission → Option ErrorKind
  | .ok => none
  | .u => some .uninitializedKey
  | .k => some .keyValidationFailed
  | .i => some .illegalCommand

/-! ### Independence of the two sub-states (R251) -/

/-- The commands of the AES sub-state: opcodes 0x10 to 0x13, 0x30 to 0x34, 0x40 to 0x43, 0x60. -/
def isAesCommand (i : Instr) : Bool :=
  decide (opcodeOf i ∈ [0x10, 0x11, 0x12, 0x13, 0x30, 0x31, 0x32, 0x33, 0x34, 0x40, 0x41, 0x42, 0x43, 0x60])

/-- The commands of the RSA sub-state: opcodes 0x50 to 0x53, 0x61. -/
def isRsaCommand (i : Instr) : Bool := decide (opcodeOf i ∈ [0x50, 0x51, 0x52, 0x53, 0x61])

/-- `s` with the RSA sub-state of `r`: RSAST, the big-integer registers, HASPRIV and HASCRT. -/
def State.withRsaOf (s r : State) : State :=
  { s with
    rsast := r.rsast, rsaN := r.rsaN, rsaE := r.rsaE, rsaD := r.rsaD, rsaP := r.rsaP, rsaQ := r.rsaQ
    rsaDP := r.rsaDP, rsaDQ := r.rsaDQ, rsaQP := r.rsaQP, hasPriv := r.hasPriv, hasCrt := r.hasCrt }

/-- `s` with the AES sub-state and the staging registers of `r`: KEY, MODE, CTR, IV, KEYIN, VECIN. -/
def State.withAesOf (s r : State) : State :=
  { s with
    key := r.key, mode := r.mode, ctr := r.ctr, iv := r.iv, keyin := r.keyin, vecin := r.vecin }

/-! ### Key records and signatures -/

/-- The contents of a key record's fields as byte strings, each of its natural or any other allowed
length (R211). -/
structure KeyImage where
  n : Bytes
  e : Bytes
  d : Bytes
  p : Bytes
  q : Bytes
  dp : Bytes
  dq : Bytes
  qp : Bytes
deriving DecidableEq, Repr

/-- What stands in the rest of each slot of a key record, after the field (R211): ignored by the parse,
whatever it is. -/
structure SlotFill where
  e : Bytes
  d : Bytes
  p : Bytes
  q : Bytes
  dp : Bytes
  dq : Bytes
  qp : Bytes
deriving DecidableEq, Repr

/-- Each field and its filler make up the slot the table of R211 gives the field; N has no filler. -/
structure KeyImage.Fills (k : KeyImage) (f : SlotFill) : Prop where
  n : k.n.length = 256
  e : k.e.length + f.e.length = 8
  d : k.d.length + f.d.length = 256
  p : k.p.length + f.p.length = 128
  q : k.q.length + f.q.length = 128
  dp : k.dp.length + f.dp.length = 128
  dq : k.dq.length + f.dq.length = 128
  qp : k.qp.length + f.qp.length = 128

/-- The bytes of a key record (R211), in the order of its table: the header with the fields' lengths,
then each field at the start of its slot and the slot's filler after it. -/
def KeyImage.record (k : KeyImage) (f : SlotFill) : Bytes :=
  [0x01] ++ bytesN 1 k.e.length ++ bytesN 2 k.d.length ++ bytesN 2 k.p.length ++
    bytesN 2 k.q.length ++ bytesN 2 k.dp.length ++ bytesN 2 k.dq.length ++ bytesN 2 k.qp.length ++
    [0x00, 0x00] ++ k.n ++ (k.e ++ f.e) ++ (k.d ++ f.d) ++ (k.p ++ f.p) ++ (k.q ++ f.q) ++
    (k.dp ++ f.dp) ++ (k.dq ++ f.dq) ++ (k.qp ++ f.qp)

/-- The key record at KEYPTR, if it parses (R212). -/
def State.keyRecord (s : State) : Option KeyRecord :=
  parseKeyRecord (s.mem.readBytes s.keyptr.toNat Config.keyRecordLen)

end Sys2Proof.Machine
end

