-- ==== Sys2Proof/Certificates/Slice0/Obligations.lean ====
section
/-! DEFINITION. The statements about the machine that are to be proved. Each docstring names the rule of
spec/ it formalises. The witnesses that their hypotheses can be met together stand in
Sys2Proof/Tests/Slice0.lean. Where a statement writes out a next state, the fields `queue` and `reply`
are the model's own (log entries 3 and 4). -/

open Sys2Proof Sys2Proof.Machine

/-! ### Encoding -/

/-- R70, R71, R75: decoding the word of a well-formed command gives the command back, with every
immediate and flag. -/
def Obligations.DecodeUndoesEncode : Prop :=
  ∀ i : Instr, i.wellFormed = true → decode (encode i) = .ok i

/-- R71, R74: a legal word is the word of the command it decodes to; so no two words mean one command
and the bits of a word are all accounted for. -/
def Obligations.EncodeUndoesDecode : Prop :=
  ∀ (w : Word) (i : Instr), decode w = .ok i → i.wellFormed = true ∧ encode i = w

/-- R74: which words are legal, bit for bit; and what a write of an illegal one to CMD does. -/
def Obligations.LegalEncodings : Prop :=
  ∀ w : Word,
    let op := (w.extractLsb' 0 8).toNat
    let legal :=
      op ∈ [0x10, 0x11, 0x12, 0x13, 0x20, 0x30, 0x31, 0x32, 0x33, 0x34, 0x40, 0x41, 0x42, 0x43,
        0x50, 0x51, 0x52, 0x53, 0x60, 0x61] ∧
      w.extractLsb' 24 8 = 0 ∧ w.extractLsb' 9 7 = 0 ∧
      (w.extractLsb' 16 8 = 0 ∨ op = 0x32) ∧ (w.extractLsb' 8 1 = 0 ∨ op = 0x33 ∨ op = 0x34)
    ((∃ i, decode w = .ok i) ↔ legal) ∧
      (¬legal → ∀ s : State, ∃ t, perform (.regWrite 32 0x00 w) s = .next t ∧
        t = { s with ok := false, err := some .illegalCommand, reply := .done } ∧ t.errWord = 6)

/-- R71, 95 V7.1, V7.2: a few words written out bit by bit. -/
def Obligations.DecodeOfWrittenWords : Prop :=
  decode 0b00000000000000000000000000010000 = .ok .ecbInitEnc ∧
  decode 0b00000000000000000000000000100000 = .ok .sha256 ∧
  decode 0b00000000100000000000000000110010 = .ok (.ctrAdd 128) ∧
  decode 0b00000000000000000000000100110100 = .ok (.ctrStream true) ∧
  decode 0b00000000000000000000000001000011 = .ok .cbcDec ∧
  decode 0b00000000000000000000000001010011 = .ok .rsaDerive ∧
  decode 0b00000000000000000000000001100001 = .ok .rsaRelease ∧
  decode 0b00000000000000000000000000000000 = .error .opcode ∧
  decode 0b00000000000000000000000100010010 = .error .ks

/-- R10, R12, R21, R70: a step is the host's first pending action, whatever it is, taken from the host's
list and performed; where that action is the 32-bit write of a word to CMD and the word decodes to a
command, it is that command's execution, with the bus's answer recorded. The list and the record are
the model's own (log entries 3 and 4). -/
def Obligations.StepRunsTheDecodedCommand : Prop :=
  (∀ (s : State) (a : HostAction) (rest : List HostAction),
    s.queue = a :: rest → step s = perform a { s with queue := rest }) ∧
  (∀ (s : State) (w : Word) (rest : List HostAction) (i : Instr),
    s.queue = .regWrite 32 0x00 w :: rest → decode w = .ok i →
      step s = exec i { s with queue := rest, reply := .done }) ∧
  ∀ (s : State) (i : Instr), i.wellFormed = true →
    step (s.withFetchWord 32 (encode i).toNat) = exec i { s with reply := .done }

/-! ### The register window -/

/-- R43, R44: what a read of each of the 24 mapped words returns, and that a read changes nothing; what
a write of each word other than CMD sets, and that it sets nothing else. -/
def Obligations.RegisterMapReadsAndWrites : Prop :=
  ∀ s : State,
    (∀ p ∈ ([(0x00, 0), (0x04, s.statusWord), (0x08, s.errWord), (0x0C, s.src), (0x10, s.dst),
        (0x14, s.len), (0x18, s.keyptr), (0x1C, s.aux), (0x20, 0), (0x24, 0), (0x28, 0), (0x2C, 0),
        (0x30, s.vecin.word 0), (0x34, s.vecin.word 1), (0x38, s.vecin.word 2),
        (0x3C, s.vecin.word 3), (0x40, s.ctr.word 0), (0x44, s.ctr.word 1), (0x48, s.ctr.word 2),
        (0x4C, s.ctr.word 3), (0x50, s.iv.word 0), (0x54, s.iv.word 1), (0x58, s.iv.word 2),
        (0x5C, s.iv.word 3)] : List (Nat × Word)),
      perform (.regRead 32 p.1) s = .next { s with reply := .data p.2 }) ∧
    ∀ v : Word, ∀ p ∈ ([(0x04, s), (0x08, s), (0x0C, { s with src := v }),
        (0x10, { s with dst := v }), (0x14, { s with len := v }), (0x18, { s with keyptr := v }),
        (0x1C, { s with aux := v }), (0x20, { s with keyin := s.keyin.setWord 0 v }),
        (0x24, { s with keyin := s.keyin.setWord 1 v }),
        (0x28, { s with keyin := s.keyin.setWord 2 v }),
        (0x2C, { s with keyin := s.keyin.setWord 3 v }),
        (0x30, { s with vecin := s.vecin.setWord 0 v }),
        (0x34, { s with vecin := s.vecin.setWord 1 v }),
        (0x38, { s with vecin := s.vecin.setWord 2 v }),
        (0x3C, { s with vecin := s.vecin.setWord 3 v }), (0x40, s), (0x44, s), (0x48, s), (0x4C, s),
        (0x50, s), (0x54, s), (0x58, s), (0x5C, s)] : List (Nat × State)),
      perform (.regWrite 32 p.1 v) s = .next { p.2 with reply := .done }

/-- R42, R44: a 16-byte register as four big-endian words, and one word of it written. -/
def Obligations.RegisterWordsAreBigEndian : Prop :=
  ∀ b : Block,
    (∀ j < 4, (b.word j).toNat = (b.get (4 * j)).toNat * 2 ^ 24 + (b.get (4 * j + 1)).toNat * 2 ^ 16 +
      (b.get (4 * j + 2)).toNat * 2 ^ 8 + (b.get (4 * j + 3)).toNat) ∧
    b.toNat = (b.word 0 ++ b.word 1 ++ b.word 2 ++ b.word 3).toNat ∧
    ∀ j < 4, ∀ k < 4, ∀ w : Word, (b.setWord j w).word k = if k = j then w else b.word k

/-- R41, R270: which accesses are refused, and that a refused one changes no state, STATUS and ERR
included, and gets the error response (`reply` is the model's record of the bus, log entries 4 and
7); every other access is answered. -/
def Obligations.RefusedAccessesChangeNothing : Prop :=
  ∀ (s : State) (width offset : Nat) (v : Word),
    (width ≠ 32 ∨ offset % 4 ≠ 0 ∨ 0x60 ≤ offset →
      perform (.regRead width offset) s = .next { s with reply := .refused } ∧
      perform (.regWrite width offset v) s = .next { s with reply := .refused }) ∧
    (width = 32 → offset % 4 = 0 → offset < 0x60 →
      (∃ x, perform (.regRead width offset) s = .next { s with reply := .data x }) ∧
      ∃ t, perform (.regWrite width offset v) s = .next t ∧ t.reply = .done)

/-- R14, R22, R23, R24, R260: the bits of STATUS and the codes of ERR. -/
def Obligations.StatusAndErrLayout : Prop :=
  ∀ s : State,
    s.statusWord.getLsbD 0 = s.ok ∧ s.statusWord.extractLsb' 1 3 = 0 ∧
    s.statusWord.extractLsb' 7 1 = 0 ∧ s.statusWord.extractLsb' 10 22 = 0 ∧
    (∀ p ∈ ([(.none, 0), (.ecbEnc, 1), (.ecbDec, 2), (.ctr, 3), (.cbcEnc, 4), (.cbcDec, 5)] :
        List (Mode × BitVec 3)),
      s.mode = p.1 → s.statusWord.extractLsb' 4 3 = p.2) ∧
    (∀ p ∈ ([(.uninit, 0), (.valid, 1), (.invalid, 2)] : List (RsaState × BitVec 2)),
      s.rsast = p.1 → s.statusWord.extractLsb' 8 2 = p.2) ∧
    ∀ p ∈ ([(none, 0), (some .uninitializedKey, 1), (some .keyValidationFailed, 2),
        (some .invalidInputSize, 3), (some .paddingOrDigestMismatch, 4),
        (some .modularInverseUndefined, 5), (some .illegalCommand, 6), (some .accessFault, 7)] :
        List (Option ErrorKind × Word)),
      s.err = p.1 → s.errWord = p.2

/-- R290, R29: reset puts every register at its reset value and leaves buffer memory; and it is what
AES_RELEASE followed by RSA_RELEASE produce, except the pointer registers and STATUS.OK. -/
def Obligations.ResetPutsEveryRegisterAtItsValue : Prop :=
  ∀ s : State,
    let z : State :=
      { key := Block.zeros, mode := .none, ctr := Block.zeros, iv := Block.zeros,
        keyin := Block.zeros, vecin := Block.zeros, src := 0, dst := 0, len := 0, keyptr := 0,
        aux := 0, ok := false, err := none, rsast := .uninit, rsaN := 0, rsaE := 0, rsaD := 0,
        rsaP := 0, rsaQ := 0, rsaDP := 0, rsaDQ := 0, rsaQP := 0, hasPriv := false, hasCrt := false,
        mem := s.mem, backed := s.backed, queue := s.queue, reply := s.reply }
    perform .reset s = .next { z with reply := .done } ∧
    ∃ t, exec .aesRelease s = .next t ∧
      exec .rsaRelease t = .next { z with
        src := s.src, dst := s.dst, len := s.len, keyptr := s.keyptr, aux := s.aux, ok := true }

/-! ### How commands end -/

/-- R262, R265, R268 (the last one derived by the spec): every command in every state reaches a next
state, in which STATUS.OK is 1 exactly when ERR is 0. -/
def Obligations.EveryCommandEndsWithItsResult : Prop :=
  ∀ (i : Instr) (s : State), ∃ t, exec i s = .next t ∧ (t.ok = true ↔ t.err = none) ∧
    (t.ok = true ↔ t.errWord = 0)

/-- R263: a command that ends with an error has changed nothing but STATUS.OK and ERR, in every state
whose RSA registers are zero while no key is loaded (`RsaInv`); RSA_INIT that ends with
KeyValidationFailed has changed the RSA sub-state besides, and set RSAST = INVALID. -/
def Obligations.ErringCommandsChangeOnlyTheResult : Prop :=
  (∀ (i : Instr) (s t : State) (k : ErrorKind), s.RsaInv → exec i s = .next t → t.err = some k →
    ¬(i = .rsaInit ∧ k = .keyValidationFailed) → t = { s with ok := false, err := some k }) ∧
  ∀ s t : State, exec .rsaInit s = .next t → t.err = some .keyValidationFailed →
    t = { s.withRsaOf t with ok := false, err := some .keyValidationFailed } ∧
    t.rsast = .invalid ∧ t.hasPriv = false ∧ t.hasCrt = false

/-- R265 (and R263): a command that failed fails again in the same way when it is repeated, and
changes nothing; RSA_INIT that loaded an invalid key is IllegalCommand when repeated (R210). -/
def Obligations.RetryReproducesTheFailure : Prop :=
  (∀ (i : Instr) (s t : State) (k : ErrorKind), s.RsaInv → exec i s = .next t → t.err = some k →
    ¬(i = .rsaInit ∧ k = .keyValidationFailed) → exec i t = .next t) ∧
  ∀ s t : State, exec .rsaInit s = .next t → t.err = some .keyValidationFailed →
    exec .rsaInit t = .next { t with err := some .illegalCommand }

/-- R255, a table the spec derives from the commands' rules. A command that the table does not admit
ends with the table's error and changes nothing else; one that it admits never ends with
IllegalCommand. -/
def Obligations.AdmissionTableHolds : Prop :=
  ∀ (i : Instr) (s : State),
    (∀ k, (admission i s).error = some k →
      exec i s = .next { s with ok := false, err := some k }) ∧
    (admission i s = .ok → ∃ t, exec i s = .next t ∧ t.err ≠ some .illegalCommand)

/-- R264, R103, R162, R263: in a state that admits the command, a bad size is reported before a bad
range, and a bad range before anything found in the contents; nothing else changes. A range is in
order (R51) exactly when it is empty, or ends at or below 2^32 with every byte of it backed; what is
backed is the platform's list of regions (the model's form of it, log entry 2). -/
def Obligations.ChecksAreMadeInOrder : Prop :=
  (∀ (backed : List Region) (a n : Nat),
    (rangeOK backed a n = true ↔
      n = 0 ∨ (a + n ≤ 2 ^ 32 ∧ ∀ i < n, isBacked backed (a + i) = true)) ∧
    (isBacked backed a = true ↔ ∃ r ∈ backed, r.base ≤ a ∧ a < r.base + r.size)) ∧
  ∀ s : State,
    let stops (i : Instr) (k : ErrorKind) : Prop :=
      exec i s = .next { s with ok := false, err := some k }
    let bad (a n : Nat) : Prop := rangeOK s.backed a n = false
    let src := s.src.toNat
    let dst := s.dst.toNat
    let len := s.len.toNat
    (∀ p ∈ ([(.ecbEnc, .ecbEnc), (.ecbDec, .ecbDec), (.cbcEnc, .cbcEnc), (.cbcDec, .cbcDec)] :
        List (Mode × Instr)), s.mode = p.1 →
      (len % 16 ≠ 0 → stops p.2 .invalidInputSize) ∧
      (len % 16 = 0 → bad src len ∨ bad dst len → stops p.2 .accessFault)) ∧
    (bad src len ∨ bad dst 32 → stops .sha256 .accessFault) ∧
    (s.mode = .ctr →
      (bad dst 16 → ∀ ks, stops (.ctrBlock ks) .accessFault) ∧
      (bad src 16 → stops (.ctrBlock false) .accessFault) ∧
      (bad dst len → ∀ ks, stops (.ctrStream ks) .accessFault) ∧
      (bad src len → stops (.ctrStream false) .accessFault)) ∧
    (s.rsast = .uninit →
      (bad s.keyptr.toNat 1176 → stops .rsaInit .accessFault) ∧
      (bad s.keyptr.toNat 1176 ∨ bad src 256 ∨ bad s.aux.toNat 32 → stops .rsaVerify .accessFault) ∧
      (bad s.keyptr.toNat 1176 ∨ bad src 256 ∨ bad dst 256 → stops .rsaRaw .accessFault)) ∧
    (s.rsast = .valid → s.hasPriv = true → bad dst 384 → stops .rsaDerive .accessFault)

/-- R20, R78: no command writes SRC, DST, LEN, KEYPTR or AUX. The other three clauses are about fields
of the model's own and rest on log entries 2 (`backed`, the platform), 3 (`queue`, what the host does
next) and 4 (`reply`, what the bus last answered): no command writes those either. -/
def Obligations.CommandsKeepThePointers : Prop :=
  ∀ (i : Instr) (s t : State), exec i s = .next t →
    t.src = s.src ∧ t.dst = s.dst ∧ t.len = s.len ∧ t.keyptr = s.keyptr ∧ t.aux = s.aux ∧
    t.backed = s.backed ∧ t.queue = s.queue ∧ t.reply = s.reply

/-- R13, R252: KEY is immutable once set: the only steps that change it are reset, AES_RELEASE, and an
AES init command in MODE = NONE, which copies KEYIN. -/
def Obligations.KeyChangesOnlyByInitReleaseOrReset : Prop :=
  ∀ s t : State, step s = .next t → t.key ≠ s.key →
    (∃ rest, s.queue = .reset :: rest ∧ t.key = Block.zeros) ∨
    ∃ (w : Word) (rest : List HostAction) (i : Instr),
      s.queue = .regWrite 32 0x00 w :: rest ∧ decode w = .ok i ∧
      (i = .aesRelease ∧ t.key = Block.zeros ∨
        i ∈ [Instr.ecbInitEnc, .ecbInitDec, .ctrInit, .cbcInitEnc, .cbcInitDec] ∧
          s.mode = .none ∧ t.key = s.keyin)

/-- R251, which the spec derives from the commands' rules: no AES command reads or writes the RSA
sub-state, no RSA command reads or writes the AES sub-state or the staging registers, and SHA256 reads
and writes neither. -/
def Obligations.AesAndRsaAreIndependent : Prop :=
  ∀ (i : Instr) (s r t : State), exec i s = .next t →
    (isAesCommand i = true ∨ i = .sha256 →
      t.withRsaOf s = t ∧ exec i (s.withRsaOf r) = .next (t.withRsaOf r)) ∧
    (isRsaCommand i = true ∨ i = .sha256 →
      t.withAesOf s = t ∧ exec i (s.withAesOf r) = .next (t.withAesOf r))

/-- R101, R102, R140, R142, R143, R160, R161, R253, R254: what the commands that touch registers only
do, and that they change nothing else. -/
def Obligations.RegisterCommandsResult : Prop :=
  ∀ s : State,
    (s.mode = .none →
      exec .ecbInitEnc s = .next { s with
        key := s.keyin, mode := .ecbEnc, ok := true, err := none } ∧
      exec .ecbInitDec s = .next { s with
        key := s.keyin, mode := .ecbDec, ok := true, err := none } ∧
      exec .ctrInit s = .next { s with
        key := s.keyin, ctr := s.vecin, mode := .ctr, ok := true, err := none } ∧
      exec .cbcInitEnc s = .next { s with
        key := s.keyin, iv := s.vecin, mode := .cbcEnc, ok := true, err := none } ∧
      exec .cbcInitDec s = .next { s with
        key := s.keyin, iv := s.vecin, mode := .cbcDec, ok := true, err := none }) ∧
    (s.mode = .ctr →
      exec .ctrSet s = .next { s with ctr := s.vecin, ok := true, err := none } ∧
      ∀ imm, exec (.ctrAdd imm) s = .next { s with
        ctr := addCounter s.ctr imm, ok := true, err := none }) ∧
    exec .aesRelease s = .next { s with
      key := Block.zeros, ctr := Block.zeros, iv := Block.zeros, keyin := Block.zeros,
      vecin := Block.zeros, mode := .none, ok := true, err := none } ∧
    exec .rsaRelease s = .next { s with
      rsaN := 0, rsaE := 0, rsaD := 0, rsaP := 0, rsaQ := 0, rsaDP := 0, rsaDQ := 0, rsaQP := 0,
      hasPriv := false, hasCrt := false, rsast := .uninit, ok := true, err := none }

/-! ### AES and ECB -/

/-- R93, R94: the S-box table is the field inverse followed by the affine map, and the inverse table
inverts it. -/
def Obligations.SboxIsTheAffineInverse : Prop :=
  ∀ a : Byte,
    (∃ b : Byte, (gfMul a b = 1 ∨ a = 0 ∧ b = 0) ∧
      sbox a = b ^^^ b.rotateLeft 1 ^^^ b.rotateLeft 2 ^^^ b.rotateLeft 3 ^^^ b.rotateLeft 4 ^^^ 0x63) ∧
    invSbox (sbox a) = a ∧ sbox (invSbox a) = a

/-- R95: the 44 words of the key expansion: the first four are the key, each later one is the word four
before it xor `t`, where `t` is the word before it, rotated, substituted and added to the round
constant when the index is a multiple of four; the ten round constants are those R95 lists; each round
key is four of the words in order. -/
def Obligations.KeyExpansionRecurrence : Prop :=
  ∀ k : Block,
    let w := fun i => (expandKey k).getD i []
    let roundConstant := fun j => ([0x01, 0x02, 0x04, 0x08, 0x10, 0x20, 0x40, 0x80, 0x1B, 0x36] :
      Bytes).getD j 0
    (expandKey k).length = 44 ∧ (∀ i < 44, (w i).length = 4) ∧
    w 0 ++ w 1 ++ w 2 ++ w 3 = k.bytes ∧ roundKey (expandKey k) 0 = k ∧
    (∀ r < 11, (roundKey (expandKey k) r).bytes =
      w (4 * r) ++ w (4 * r + 1) ++ w (4 * r + 2) ++ w (4 * r + 3)) ∧
    ∀ i, 4 ≤ i → i < 44 → ∀ j < 4,
      (w i).getD j 0 = (w (i - 4)).getD j 0 ^^^
        (if i % 4 = 0 then
          sbox ((w (i - 1)).getD ((j + 1) % 4) 0) ^^^ (if j = 0 then roundConstant (i / 4 - 1) else 0)
        else (w (i - 1)).getD j 0)

/-- R100, a law the spec derives from the cipher's rules: decryption undoes encryption and the other
way round, under every key; encryption under a fixed key is a permutation of the blocks. -/
def Obligations.AesDecryptUndoesEncrypt : Prop :=
  ∀ k : Block,
    (∀ x : Block, aesDec k (aesEnc k x) = x ∧ aesEnc k (aesDec k x) = x) ∧
    Function.Bijective (aesEnc k)

/-- R57, R104, R105: ECB_ENC and ECB_DEC complete whenever they are admitted, the size is a multiple of
16 and both ranges are in order, whatever the overlap: block after block in ascending order, each
input read from the memory the blocks before it left; nothing but the LEN bytes at DST changes. -/
def Obligations.EcbCommandsGoBlockByBlock : Prop :=
  ∀ s : State, s.len.toNat % 16 = 0 →
    rangeOK s.backed s.src.toNat s.len.toNat = true →
    rangeOK s.backed s.dst.toNat s.len.toNat = true →
    ∀ p ∈ ([(.ecbEnc, .ecbEnc, aesEnc s.key), (.ecbDec, .ecbDec, aesDec s.key)] :
        List (Mode × Instr × (Block → Block))), s.mode = p.1 →
      ∃ m : Nat → Memory,
        m 0 = s.mem ∧
        (∀ k < s.len.toNat / 16, m (k + 1) = (m k).writeBlock (s.dst.toNat + 16 * k)
          (p.2.2 ((m k).readBlock (s.src.toNat + 16 * k)))) ∧
        exec p.2.1 s = .next { s with mem := m (s.len.toNat / 16), ok := true, err := none } ∧
        sameOutside s.dst.toNat s.len.toNat s.mem (m (s.len.toNat / 16))

/-- R57, R104, R105: with DST = SRC, and with buffers that do not overlap, each output block is the
cipher of the input block of the state before. -/
def Obligations.EcbInPlaceAndDisjointAgree : Prop :=
  ∀ s : State, s.len.toNat % 16 = 0 →
    rangeOK s.backed s.src.toNat s.len.toNat = true →
    rangeOK s.backed s.dst.toNat s.len.toNat = true →
    sameOrDisjoint s.src.toNat s.dst.toNat s.len.toNat →
    ∀ p ∈ ([(.ecbEnc, .ecbEnc, aesEnc s.key), (.ecbDec, .ecbDec, aesDec s.key)] :
        List (Mode × Instr × (Block → Block))), s.mode = p.1 →
      ∃ t, exec p.2.1 s = .next t ∧ t.ok = true ∧
        ∀ k < s.len.toNat / 16, t.mem.readBlock (s.dst.toNat + 16 * k) =
          p.2.2 (s.mem.readBlock (s.src.toNat + 16 * k))

/-- R105, the law it states as derived from R100: ECB_DEC undoes ECB_ENC in place under the same key
on the same length: every byte of buffer memory is back. -/
def Obligations.EcbRoundTripInPlace : Prop :=
  ∀ s : State, s.mode = .ecbEnc → s.src = s.dst → s.len.toNat % 16 = 0 →
    rangeOK s.backed s.src.toNat s.len.toNat = true →
    ∃ t u, exec .ecbEnc s = .next t ∧ exec .ecbDec { t with mode := .ecbDec } = .next u ∧
      u.ok = true ∧ ∀ a, u.mem.read a = s.mem.read a

/-- R92, R96 to R99: the product of two bytes is the sum of the multiples by 2 that the bits of the
second select; each transformation sets each byte (row `r`, column `c`) as its rule says; AES_Enc and
AES_Dec are the rounds of R98 and R99 over those transformations and the round keys. -/
def Obligations.AesIsBuiltFromItsRounds : Prop :=
  (∀ a : Byte, xtime a = if a.getLsbD 7 then (a <<< 1) ^^^ 0x1B else a <<< 1) ∧
  (∀ a b : Byte, gfMul a b = (List.range 8).foldl
    (fun acc i => if b.getLsbD i then acc ^^^ xtime^[i] a else acc) 0) ∧
  (∀ (s t : Block), ∀ i < 16, (addRoundKey s t).get i = s.get i ^^^ t.get i) ∧
  (∀ s : Block, ∀ c < 4,
    (∀ r < 4,
      (subBytes s).get (r + 4 * c) = sbox (s.get (r + 4 * c)) ∧
      (invSubBytes s).get (r + 4 * c) = invSbox (s.get (r + 4 * c)) ∧
      (shiftRows s).get (r + 4 * c) = s.get (r + 4 * ((c + r) % 4)) ∧
      (invShiftRows s).get (r + 4 * c) = s.get (r + 4 * ((c + 4 - r) % 4))) ∧
    let a0 := s.get (4 * c)
    let a1 := s.get (4 * c + 1)
    let a2 := s.get (4 * c + 2)
    let a3 := s.get (4 * c + 3)
    let column (t : Block) (b0 b1 b2 b3 : Byte) : Prop :=
      t.get (4 * c) = b0 ∧ t.get (4 * c + 1) = b1 ∧ t.get (4 * c + 2) = b2 ∧ t.get (4 * c + 3) = b3
    column (mixColumns s)
      (gfMul a0 2 ^^^ gfMul a1 3 ^^^ a2 ^^^ a3) (a0 ^^^ gfMul a1 2 ^^^ gfMul a2 3 ^^^ a3)
      (a0 ^^^ a1 ^^^ gfMul a2 2 ^^^ gfMul a3 3) (gfMul a0 3 ^^^ a1 ^^^ a2 ^^^ gfMul a3 2) ∧
    column (invMixColumns s)
      (gfMul a0 0x0E ^^^ gfMul a1 0x0B ^^^ gfMul a2 0x0D ^^^ gfMul a3 0x09)
      (gfMul a0 0x09 ^^^ gfMul a1 0x0E ^^^ gfMul a2 0x0B ^^^ gfMul a3 0x0D)
      (gfMul a0 0x0D ^^^ gfMul a1 0x09 ^^^ gfMul a2 0x0E ^^^ gfMul a3 0x0B)
      (gfMul a0 0x0B ^^^ gfMul a1 0x0D ^^^ gfMul a2 0x09 ^^^ gfMul a3 0x0E)) ∧
  ∀ k x : Block,
    let rk := roundKey (expandKey k)
    (∃ s : Nat → Block, s 0 = addRoundKey x (rk 0) ∧
      (∀ r, 1 ≤ r → r < 10 →
        s r = addRoundKey (mixColumns (shiftRows (subBytes (s (r - 1))))) (rk r)) ∧
      aesEnc k x = addRoundKey (shiftRows (subBytes (s 9))) (rk 10)) ∧
    ∃ s : Nat → Block, s 10 = addRoundKey x (rk 10) ∧
      (∀ r, 1 ≤ r → r < 10 →
        s r = invMixColumns (addRoundKey (invSubBytes (invShiftRows (s (r + 1)))) (rk r))) ∧
      aesDec k x = addRoundKey (invSubBytes (invShiftRows (s 1))) (rk 0)

/-- R98, R99, 95 V2.4, V2.5: the cipher's known answers, each read in both directions (key, plaintext,
ciphertext), and the decryption of the zero block under the zero key. -/
def Obligations.AesKnownAnswers : Prop :=
  (∀ v ∈ ([(0x000102030405060708090a0b0c0d0e0f, 0x00112233445566778899aabbccddeeff,
        0x69c4e0d86a7b0430d8cdb78070b4c55a),
      (0x2b7e151628aed2a6abf7158809cf4f3c, 0x3243f6a8885a308d313198a2e0370734,
        0x3925841d02dc09fbdc118597196a0b32),
      (0, 0, 0x66e94bd4ef8a2c3b884cfa59ca342b2e),
      (0, 1, 0x58e2fccefa7e3061367f1d57a4e7455a),
      (0xffffffffffffffffffffffffffffffff, 0xffffffffffffffffffffffffffffffff,
        0xbcbf217cb280cf30b2517052193ab979),
      (0x2b7e151628aed2a6abf7158809cf4f3c, 0x6bc1bee22e409f96e93d7e117393172a,
        0x3ad77bb40d7a3660a89ecaf32466ef97),
      (0x000102030405060708090a0b0c0d0e0f, 0, 0xc6a13b37878f5b826f4f8162a1c8d879)] :
      List (Nat × Nat × Nat)),
    aesEnc (Block.ofNat v.1) (Block.ofNat v.2.1) = Block.ofNat v.2.2 ∧
    aesDec (Block.ofNat v.1) (Block.ofNat v.2.2) = Block.ofNat v.2.1) ∧
  aesDec Block.zeros Block.zeros = Block.ofNat 0x140f0f1011b5223d79587717ffd9ec3a

/-! ### SHA-256 -/

/-- R125: the padded message: the message, one byte 0x80, zeros, the length in bits as 64 bits
big-endian, in the least multiple of 64 bytes that holds them. -/
def Obligations.ShaPaddingShape : Prop :=
  ∀ m : Bytes, m.length < 2 ^ 32 →
    let l := m.length
    let p := shaPad m
    p.length % 64 = 0 ∧ l + 9 ≤ p.length ∧ p.length < l + 9 + 64 ∧
    p.take l = m ∧ p.getD l 0 = 0x80 ∧
    (∀ i, l < i → i + 8 < p.length → p.getD i 1 = 0) ∧
    be (p.drop (p.length - 8)) = 8 * l

/-- R127, 95 V3.1 to V3.6 and V3.8: the digest is Compress folded over the 64-byte blocks of the padded
message, in order, from H0; the known answers of messages that pad to one block, to two (56 and 64
bytes) and to five (the bytes 00 to ff). -/
def Obligations.ShaKnownAnswers : Prop :=
  (∀ m : Bytes,
    sha256 m = ((List.range ((shaPad m).length / 64)).foldl
      (fun h i => shaCompress h (slice (shaPad m) (64 * i) (64 * i + 64))) shaH0).toBytes) ∧
  ∀ v ∈ ([([], 0xe3b0c44298fc1c149afbf4c8996fb92427ae41e4649b934ca495991b7852b855),
      ([0x61, 0x62, 0x63], 0xba7816bf8f01cfea414140de5dae2223b00361a396177a9cb410ff61f20015ad),
      ((List.range 14).flatMap fun i => (List.range 4).map fun j => BitVec.ofNat 8 (0x61 + i + j),
        0x248d6a61d20638b8e5c026930c3e6039a33ce45964ff2167f6ecedd419db06c1),
      (List.replicate 55 0x61, 0x9f4390f8d30c2dd92ec9f095b65e2b9ae9b0a925a5258e241c9f1e910f734318),
      (List.replicate 56 0x61, 0xb35439a4ac6f0948b6d6f9e3c6af0f5f590ce20f1bde7090ef7970686ec6738a),
      (List.replicate 64 0x61, 0xffe054fe7ae0cb6dc65c3af9b61d5209f439851db43d0ba5997337df154668eb),
      ((List.range 256).map (BitVec.ofNat 8),
        0x40aff2e9d2d8922e47afd4648e6967497158785fbd1da870e7110266bf944880)] :
      List (Bytes × Nat)),
    sha256 v.1 = bytesN 32 v.2

/-- R128, R57: SHA256 completes in every MODE and RSAST whenever its two ranges are in order, and
leaves at DST the digest of the message that stood at SRC before, overlap or not; nothing but those 32
bytes, STATUS.OK and ERR changes. -/
def Obligations.Sha256CommandResult : Prop :=
  ∀ s : State, rangeOK s.backed s.src.toNat s.len.toNat = true →
    rangeOK s.backed s.dst.toNat 32 = true →
    ∃ t, exec .sha256 s = .next t ∧ t = { s with mem := t.mem, ok := true, err := none } ∧
      t.mem.readBytes s.dst.toNat 32 = sha256 (s.mem.readBytes s.src.toNat s.len.toNat) ∧
      sameOutside s.dst.toNat 32 s.mem t.mem

/-! ### Counter mode -/

/-- R141: AddCounter is addition modulo 2^128 on the big-endian integer, for every byte value; adding 0
changes nothing, 256 additions of 1 add 256, and the all-ones counter plus 1 is zero. -/
def Obligations.AddCounterAddsModulo : Prop :=
  ∀ c : Block,
    (∀ v < 256, addCounter c v = Block.ofNat ((c.toNat + v) % 2 ^ 128)) ∧
    addCounter c 0 = c ∧
    (fun x => addCounter x 1)^[256] c = Block.ofNat ((c.toNat + 256) % 2 ^ 128) ∧
    (c.toNat = 2 ^ 128 - 1 → addCounter c 1 = Block.zeros)

/-- R144, R145: CTR_BLOCK completes whenever it is admitted and its ranges are in order (no input range
with KS = 1), whatever LEN and the overlap: 16 bytes of keystream, xor the input unless KS, at DST;
CTR goes up by one modulo 2^128. -/
def Obligations.CtrBlockResult : Prop :=
  ∀ (s : State) (ks : Bool), s.mode = .ctr →
    (ks = false → rangeOK s.backed s.src.toNat 16 = true) →
    rangeOK s.backed s.dst.toNat 16 = true →
    ∃ t, exec (.ctrBlock ks) s = .next t ∧
      t = { s with mem := t.mem, ctr := t.ctr, ok := true, err := none } ∧
      t.ctr.toNat = (s.ctr.toNat + 1) % 2 ^ 128 ∧
      (∀ i < 16, t.mem.read (s.dst.toNat + i) =
        (aesEnc s.key s.ctr).get i ^^^ (if ks then 0 else s.mem.read (s.src.toNat + i))) ∧
      sameOutside s.dst.toNat 16 s.mem t.mem

/-- R57, R146: CTR_STREAM completes whenever it is admitted and its ranges are in order, for every LEN
and every overlap: the full blocks in ascending order, each with its own counter value and its input
read from the memory the blocks before it left, then the tail of LEN mod 16 bytes the same way; exactly
LEN bytes at DST change. -/
def Obligations.CtrStreamGoesBlockByBlock : Prop :=
  ∀ (s : State) (ks : Bool), s.mode = .ctr →
    (ks = false → rangeOK s.backed s.src.toNat s.len.toNat = true) →
    rangeOK s.backed s.dst.toNat s.len.toNat = true →
    let q := s.len.toNat / 16
    let r := s.len.toNat % 16
    ∃ (m : Nat → Memory) (c : Nat → Block) (t : State),
      m 0 = s.mem ∧ c 0 = s.ctr ∧
      (∀ k < q, c (k + 1) = addCounter (c k) 1 ∧
        m (k + 1) = (m k).writeBlock (s.dst.toNat + 16 * k)
          (if ks then aesEnc s.key (c k)
          else (aesEnc s.key (c k)).xor ((m k).readBlock (s.src.toNat + 16 * k)))) ∧
      exec (.ctrStream ks) s = .next t ∧
      (r = 0 → t = { s with mem := m q, ctr := c q, ok := true, err := none }) ∧
      (r ≠ 0 → t = { s with
        mem := (m q).writeBytes (s.dst.toNat + 16 * q)
          (if ks then (aesEnc s.key (c q)).bytes.take r
          else xorBytes ((aesEnc s.key (c q)).bytes.take r)
            ((m q).readBytes (s.src.toNat + 16 * q) r)),
        ctr := addCounter (c q) 1, ok := true, err := none }) ∧
      sameOutside s.dst.toNat s.len.toNat s.mem t.mem

/-- R146, and R147, which the spec derives from it: byte `k` of the output is byte `k mod 16` of the
encryption of the starting counter plus `k div 16`, xor the input byte unless KS, with DST = SRC, with
buffers that do not overlap, and with KS = 1 whatever SRC; CTR goes up by `ceil(LEN / 16)` modulo
2^128. -/
def Obligations.CtrStreamBytes : Prop :=
  ∀ (s : State) (ks : Bool), s.mode = .ctr →
    (ks = false → rangeOK s.backed s.src.toNat s.len.toNat = true ∧
      sameOrDisjoint s.src.toNat s.dst.toNat s.len.toNat) →
    rangeOK s.backed s.dst.toNat s.len.toNat = true →
    ∃ t, exec (.ctrStream ks) s = .next t ∧ t.ok = true ∧
      t.ctr.toNat = (s.ctr.toNat + (s.len.toNat + 15) / 16) % 2 ^ 128 ∧
      ∀ k < s.len.toNat, t.mem.read (s.dst.toNat + k) =
        (aesEnc s.key (Block.ofNat ((s.ctr.toNat + k / 16) % 2 ^ 128))).get (k % 16) ^^^
          (if ks then 0 else s.mem.read (s.src.toNat + k))

/-- R149, which the spec derives from R146: one CTR_STREAM of length `a + b` equals one of length `a`
and then one of length `b` on the following bytes when `a` is a multiple of 16, whatever the overlap:
the same buffer memory, the same counter. -/
def Obligations.CtrStreamSplitsAtBlocks : Prop :=
  ∀ (s : State) (ks : Bool) (a : Nat), s.mode = .ctr → a % 16 = 0 → a ≤ s.len.toNat →
    (ks = false → rangeOK s.backed s.src.toNat s.len.toNat = true) →
    rangeOK s.backed s.dst.toNat s.len.toNat = true →
    ∃ t u v, exec (.ctrStream ks) s = .next t ∧
      exec (.ctrStream ks) { s with len := BitVec.ofNat 32 a } = .next u ∧
      exec (.ctrStream ks) { u with
        src := u.src + BitVec.ofNat 32 a, dst := u.dst + BitVec.ofNat 32 a,
        len := s.len - BitVec.ofNat 32 a } = .next v ∧
      t.ok = true ∧ u.ok = true ∧ v.ok = true ∧ v.mem = t.mem ∧ v.ctr = t.ctr

/-- R148, which the spec derives from R146: with the counter set back to its starting value, a second
CTR_STREAM in place gives every byte of buffer memory back, for every LEN. -/
def Obligations.CtrStreamRoundTripInPlace : Prop :=
  ∀ s : State, s.mode = .ctr → s.src = s.dst →
    rangeOK s.backed s.src.toNat s.len.toNat = true →
    ∃ t u, exec (.ctrStream false) s = .next t ∧
      exec (.ctrStream false) { t with ctr := s.ctr } = .next u ∧
      u.ok = true ∧ u.ctr = t.ctr ∧ ∀ a, u.mem.read a = s.mem.read a

/-- R150, which the spec derives from R144 to R146: keystream-only mode writes the bytes and leaves
the counter of the same command over zero bytes at SRC, with DST = SRC and with buffers that do not
overlap; CTR_BLOCK for every overlap. -/
def Obligations.KeystreamOnlyEqualsZeroInput : Prop :=
  ∀ s : State, s.mode = .ctr →
    (rangeOK s.backed s.src.toNat s.len.toNat = true →
      rangeOK s.backed s.dst.toNat s.len.toNat = true →
      sameOrDisjoint s.src.toNat s.dst.toNat s.len.toNat →
      (∀ k < s.len.toNat, s.mem.read (s.src.toNat + k) = 0) →
      ∃ t u, exec (.ctrStream true) s = .next t ∧ exec (.ctrStream false) s = .next u ∧
        t.ok = true ∧ u.ok = true ∧ t.ctr = u.ctr ∧ ∀ a, t.mem.read a = u.mem.read a) ∧
    (rangeOK s.backed s.src.toNat 16 = true → rangeOK s.backed s.dst.toNat 16 = true →
      (∀ k < 16, s.mem.read (s.src.toNat + k) = 0) →
      ∃ t u, exec (.ctrBlock true) s = .next t ∧ exec (.ctrBlock false) s = .next u ∧
        t.ok = true ∧ u.ok = true ∧ t.ctr = u.ctr ∧ ∀ a, t.mem.read a = u.mem.read a)

/-! ### CBC -/

/-- R57, R163, R164: CBC_ENC and CBC_DEC complete whenever they are admitted, the size is a multiple of
16 and both ranges are in order, whatever the overlap: block after block, the chaining value carried
from each ciphertext block (the one produced, or the one read) to the next; nothing but the LEN bytes
at DST, IV, STATUS.OK and ERR changes. -/
def Obligations.CbcCommandsGoBlockByBlock : Prop :=
  ∀ s : State, s.len.toNat % 16 = 0 →
    rangeOK s.backed s.src.toNat s.len.toNat = true →
    rangeOK s.backed s.dst.toNat s.len.toNat = true →
    let n := s.len.toNat / 16
    (s.mode = .cbcEnc → ∃ (m : Nat → Memory) (v : Nat → Block),
      m 0 = s.mem ∧ v 0 = s.iv ∧
      (∀ k < n,
        v (k + 1) = aesEnc s.key (((m k).readBlock (s.src.toNat + 16 * k)).xor (v k)) ∧
        m (k + 1) = (m k).writeBlock (s.dst.toNat + 16 * k) (v (k + 1))) ∧
      exec .cbcEnc s = .next { s with mem := m n, iv := v n, ok := true, err := none } ∧
      sameOutside s.dst.toNat s.len.toNat s.mem (m n)) ∧
    (s.mode = .cbcDec → ∃ (m : Nat → Memory) (v : Nat → Block),
      m 0 = s.mem ∧ v 0 = s.iv ∧
      (∀ k < n,
        v (k + 1) = (m k).readBlock (s.src.toNat + 16 * k) ∧
        m (k + 1) = (m k).writeBlock (s.dst.toNat + 16 * k)
          ((aesDec s.key (v (k + 1))).xor (v k))) ∧
      exec .cbcDec s = .next { s with mem := m n, iv := v n, ok := true, err := none } ∧
      sameOutside s.dst.toNat s.len.toNat s.mem (m n))

/-- R16, R57, R163, R164: with DST = SRC and with buffers that do not overlap, CBC_ENC xors each input
block with the ciphertext block before it (IV before the first) and encrypts; CBC_DEC decrypts each
input block and xors it with the ciphertext block before it; IV ends as the last ciphertext block. -/
def Obligations.CbcInPlaceAndDisjointAgree : Prop :=
  ∀ s : State, s.len.toNat % 16 = 0 →
    rangeOK s.backed s.src.toNat s.len.toNat = true →
    rangeOK s.backed s.dst.toNat s.len.toNat = true →
    sameOrDisjoint s.src.toNat s.dst.toNat s.len.toNat →
    let n := s.len.toNat / 16
    let input := fun k => s.mem.readBlock (s.src.toNat + 16 * k)
    (s.mode = .cbcEnc → ∃ t, exec .cbcEnc s = .next t ∧ t.ok = true ∧
      let output := fun k => t.mem.readBlock (s.dst.toNat + 16 * k)
      let before := fun k => if k = 0 then s.iv else output (k - 1)
      (∀ k < n, output k = aesEnc s.key ((input k).xor (before k))) ∧ t.iv = before n) ∧
    (s.mode = .cbcDec → ∃ t, exec .cbcDec s = .next t ∧ t.ok = true ∧
      let output := fun k => t.mem.readBlock (s.dst.toNat + 16 * k)
      let before := fun k => if k = 0 then s.iv else input (k - 1)
      (∀ k < n, output k = (aesDec s.key (input k)).xor (before k)) ∧ t.iv = before n)

/-- R165: the chain runs across commands: one CBC_ENC of length `a + b` (both multiples of 16) equals
one of length `a` and then one of length `b` on the following bytes, and the same for CBC_DEC, whatever
the overlap. -/
def Obligations.CbcChainRunsAcrossCommands : Prop :=
  ∀ (s : State) (a : Nat), a % 16 = 0 → s.len.toNat % 16 = 0 → a ≤ s.len.toNat →
    rangeOK s.backed s.src.toNat s.len.toNat = true →
    rangeOK s.backed s.dst.toNat s.len.toNat = true →
    ∀ p ∈ ([(.cbcEnc, .cbcEnc), (.cbcDec, .cbcDec)] : List (Mode × Instr)), s.mode = p.1 →
      ∃ t u v, exec p.2 s = .next t ∧
        exec p.2 { s with len := BitVec.ofNat 32 a } = .next u ∧
        exec p.2 { u with
          src := u.src + BitVec.ofNat 32 a, dst := u.dst + BitVec.ofNat 32 a,
          len := s.len - BitVec.ofNat 32 a } = .next v ∧
        t.ok = true ∧ u.ok = true ∧ v.ok = true ∧ v.mem = t.mem ∧ v.iv = t.iv

/-- R166, which the spec derives from R163, R164 and R100: CBC_DEC with the same key and the same starting
IV undoes CBC_ENC in place: every byte of buffer memory is back; and IV ends the same after both
(R163, R164). Which value IV ends at is the matter of CbcInPlaceAndDisjointAgree. -/
def Obligations.CbcRoundTripInPlace : Prop :=
  ∀ s : State, s.mode = .cbcEnc → s.src = s.dst → s.len.toNat % 16 = 0 →
    rangeOK s.backed s.src.toNat s.len.toNat = true →
    ∃ t u, exec .cbcEnc s = .next t ∧ exec .cbcDec { t with mode := .cbcDec, iv := s.iv } = .next u ∧
      u.ok = true ∧ u.iv = t.iv ∧ ∀ a, u.mem.read a = s.mem.read a

/-! ### Big integers -/

/-- R188: ModInv gives the unique inverse below the modulus where the argument is coprime to it, and is
undefined otherwise and for a modulus below 2. -/
def Obligations.ModInvIsTheInverse : Prop :=
  ∀ a m : Nat,
    (2 ≤ m → Nat.gcd (a % m) m = 1 → ∃ x, modInv a m = some x ∧ x < m ∧ a * x ≡ 1 [MOD m] ∧
      ∀ y < m, a * y ≡ 1 [MOD m] → y = x) ∧
    (m < 2 ∨ Nat.gcd (a % m) m ≠ 1 → modInv a m = none)

/-- R182, R183: for an odd modulus and a radix that is a power of two above it, NPRIME is the unique
number below the radix with `N · NPRIME ≡ −1`, and MontMul of two residues is the residue `u` with
`u · R ≡ a · b`, that is `a · b · R⁻¹ mod N`. The hardware's radix is `2^2048`. -/
def Obligations.MontgomeryProductIsCorrect : Prop :=
  ∀ k n : Nat, 0 < k → n % 2 = 1 → n < 2 ^ k →
    let r := 2 ^ k
    let np := montNPrime r n
    np < r ∧ (n * np + 1) % r = 0 ∧ (∀ y < r, (n * y + 1) % r = 0 → y = np) ∧
    ∀ a < n, ∀ b < n,
      montMul r np n a b < n ∧ montMul r np n a b * r ≡ a * b [MOD n]

/-- R184: the word-serial multiplier gives the value of MontMul for every word width that divides the
width of the operands. The hardware's width is 2048 bits. -/
def Obligations.WordSerialMultiplierAgrees : Prop :=
  ∀ bits w n : Nat, 0 < w → 0 < bits → w ∣ bits → n % 2 = 1 → n < 2 ^ bits →
    ∀ a < n, ∀ b < n,
      montMulWords bits w n a b = montMul (2 ^ bits) (montNPrime (2 ^ bits) n) n a b

/-- R186, R187: the Montgomery exponentiation procedure returns `s^E mod N` for every `s` of 2048 bits,
every `E ≥ 1` and every odd `N` of bit length 2048. -/
def Obligations.ExponentiationEngineComputesModExp : Prop :=
  ∀ s e n : Nat, s < 2 ^ 2048 → 1 ≤ e → n % 2 = 1 → bitlen n = 2048 →
    modExpEngine s e n = modExp s e n ∧ modExpEngine s e n < n

/-! ### RSA -/

/-- R211, R212: the parse of a record laid out as the table of R211 says gives every field its value
and its presence bit, for every allowed length of every field and whatever bytes fill the rest of each
slot. -/
def Obligations.ParseReadsTheRecordLayout : Prop :=
  ∀ (k : KeyImage) (f : SlotFill), k.Fills f → 1 ≤ k.e.length →
    (k.record f).length = 1176 ∧
    parseKeyRecord (k.record f) = some
      { n := be k.n, e := be k.e, d := be k.d, p := be k.p, q := be k.q, dp := be k.dp,
        dq := be k.dq, qp := be k.qp,
        hasD := decide (0 < k.d.length), hasP := decide (0 < k.p.length),
        hasQ := decide (0 < k.q.length), hasDP := decide (0 < k.dp.length),
        hasDQ := decide (0 < k.dq.length), hasQP := decide (0 < k.qp.length) }

/-- R212: the parse fails exactly when one of the conditions the rule lists holds. -/
def Obligations.ParseFailsOnMalformedRecords : Prop :=
  ∀ rec : Bytes, rec.length = 1176 →
    let byte := fun i => (rec.getD i 0).toNat
    let half := fun i => byte i * 256 + byte (i + 1)
    (parseKeyRecord rec = none ↔
      byte 0 ≠ 1 ∨ half 0x0E ≠ 0 ∨ byte 1 < 1 ∨ 8 < byte 1 ∨ 256 < half 2 ∨ 128 < half 4 ∨
      128 < half 6 ∨ 128 < half 8 ∨ 128 < half 0x0A ∨ 128 < half 0x0C)

/-- R214, R215: when the two key checks pass, and with which HASPRIV and HASCRT. -/
def Obligations.KeyChecksAreTheRules : Prop :=
  (∀ n e : Nat, publicCheck n e = true ↔
    2 ^ 2047 ≤ n ∧ n < 2 ^ 2048 ∧ n % 2 = 1 ∧ e % 2 = 1 ∧ 3 ≤ e) ∧
  ∀ (r : KeyRecord) (priv crt : Bool), privateCheck r = some (priv, crt) ↔
    (priv = false ∧ crt = false ∧ r.hasD = false ∧ r.hasP = false ∧ r.hasQ = false ∧
      r.hasDP = false ∧ r.hasDQ = false ∧ r.hasQP = false) ∨
    (priv = true ∧ r.hasD = true ∧ r.hasP = true ∧ r.hasQ = true ∧
      r.hasDP = crt ∧ r.hasDQ = crt ∧ r.hasQP = crt ∧
      2 ≤ r.p ∧ 2 ≤ r.q ∧ r.p * r.q = r.n ∧
      r.d * r.e % Nat.lcm (r.p - 1) (r.q - 1) = 1 ∧
      (crt = true → r.dp = r.d % (r.p - 1) ∧ r.dq = r.d % (r.q - 1) ∧ r.qp < r.p ∧
        r.qp * r.q % r.p = 1))

/-- R217: the encoded message has 256 bytes, and equality with it is the conjunction of the six
structural checks. -/
def Obligations.EncodedMessageIsTheSixChecks : Prop :=
  ∀ h : Bytes, h.length = 32 →
    (encodedMessage h).length = 256 ∧
    ∀ em : Bytes, em.length = 256 →
      (em = encodedMessage h ↔
        em.getD 0 1 = 0x00 ∧ em.getD 1 0 = 0x01 ∧ (∀ i, 2 ≤ i → i < 204 → em.getD i 0 = 0xFF) ∧
        em.getD 204 1 = 0x00 ∧
        slice em 205 224 = [0x30, 0x31, 0x30, 0x0d, 0x06, 0x09, 0x60, 0x86, 0x48, 0x01, 0x65, 0x03,
          0x04, 0x02, 0x01, 0x05, 0x00, 0x04, 0x20] ∧
        slice em 224 256 = h)

/-- R213, R216: RSA_INIT on a record that parses and passes both checks loads the eight registers with
the integers of the record, sets the two flags, RSAST = VALID and the result, and changes nothing
else. -/
def Obligations.RsaInitLoadsTheKey : Prop :=
  ∀ (s : State) (r : KeyRecord) (priv crt : Bool), s.rsast = .uninit →
    rangeOK s.backed s.keyptr.toNat 1176 = true → s.keyRecord = some r →
    publicCheck r.n r.e = true → privateCheck r = some (priv, crt) →
    ∃ t, exec .rsaInit s = .next t ∧ t = { s.withRsaOf t with ok := true, err := none } ∧
      t.rsast = .valid ∧ t.hasPriv = priv ∧ t.hasCrt = crt ∧
      t.rsaN.toNat = r.n ∧ t.rsaE.toNat = r.e ∧ t.rsaD.toNat = r.d ∧ t.rsaP.toNat = r.p ∧
      t.rsaQ.toNat = r.q ∧ t.rsaDP.toNat = r.dp ∧ t.rsaDQ.toNat = r.dq ∧ t.rsaQP.toNat = r.qp

/-- R210, R213, R216, R219, R220: a record that does not parse, or fails a check, ends RSA_INIT,
RSA_VERIFY and RSA_RAW with UninitializedKey or KeyValidationFailed; RSA_INIT then keeps UNINIT or goes
to INVALID with the parsed integers loaded; the other two leave the RSA sub-state released. No byte of
buffer memory changes. -/
def Obligations.BadKeyRecordsAreReported : Prop :=
  ∀ s : State, s.rsast = .uninit → rangeOK s.backed s.keyptr.toNat 1176 = true →
    let verifyRanges := rangeOK s.backed s.src.toNat 256 = true ∧ rangeOK s.backed s.aux.toNat 32 = true
    let rawRanges := rangeOK s.backed s.src.toNat 256 = true ∧ rangeOK s.backed s.dst.toNat 256 = true
    let released (k : ErrorKind) : State := { s.releaseRsa with ok := false, err := some k }
    (s.keyRecord = none →
      exec .rsaInit s = .next { s with ok := false, err := some .uninitializedKey } ∧
      (verifyRanges → exec .rsaVerify s = .next (released .uninitializedKey)) ∧
      (rawRanges → exec .rsaRaw s = .next (released .uninitializedKey))) ∧
    ∀ r, s.keyRecord = some r → (publicCheck r.n r.e = false ∨ privateCheck r = none) →
      (∃ t, exec .rsaInit s = .next t ∧
        t = { s.withRsaOf t with ok := false, err := some .keyValidationFailed } ∧
        t.rsast = .invalid ∧ t.hasPriv = false ∧ t.hasCrt = false ∧
        t.rsaN.toNat = r.n ∧ t.rsaE.toNat = r.e ∧ t.rsaD.toNat = r.d ∧ t.rsaP.toNat = r.p ∧
        t.rsaQ.toNat = r.q ∧ t.rsaDP.toNat = r.dp ∧ t.rsaDQ.toNat = r.dq ∧ t.rsaQP.toNat = r.qp) ∧
      (verifyRanges → exec .rsaVerify s = .next (released .keyValidationFailed)) ∧
      (rawRanges → exec .rsaRaw s = .next (released .keyValidationFailed))

/-- R219: RSA_VERIFY with a free RSA sub-state, its three ranges in order and a good record ends with
STATUS.OK = 1 exactly when `bytes_256(s^E mod N)` is the encoded message of the hash, and otherwise
with PaddingOrDigestMismatch; the RSA sub-state ends released and nothing else changes. -/
def Obligations.RsaVerifyComparesTheTransform : Prop :=
  ∀ (s : State) (r : KeyRecord), s.rsast = .uninit →
    rangeOK s.backed s.keyptr.toNat 1176 = true → rangeOK s.backed s.src.toNat 256 = true →
    rangeOK s.backed s.aux.toNat 32 = true → s.keyRecord = some r →
    publicCheck r.n r.e = true → privateCheck r ≠ none →
    let em := bytesN 256 (be (s.mem.readBytes s.src.toNat 256) ^ r.e % r.n)
    let good := em = encodedMessage (s.mem.readBytes s.aux.toNat 32)
    (good → exec .rsaVerify s = .next { s.releaseRsa with ok := true, err := none }) ∧
    (¬good → exec .rsaVerify s = .next { s.releaseRsa with
      ok := false, err := some .paddingOrDigestMismatch })

/-- R220: RSA_RAW with a free RSA sub-state, its three ranges in order and a good record writes the 256
bytes of `s^E mod N` at DST; the RSA sub-state ends released and nothing else changes, whatever the
overlap. -/
def Obligations.RsaRawWritesTheTransform : Prop :=
  ∀ (s : State) (r : KeyRecord), s.rsast = .uninit →
    rangeOK s.backed s.keyptr.toNat 1176 = true → rangeOK s.backed s.src.toNat 256 = true →
    rangeOK s.backed s.dst.toNat 256 = true → s.keyRecord = some r →
    publicCheck r.n r.e = true → privateCheck r ≠ none →
    ∃ t, exec .rsaRaw s = .next t ∧
      t = { s.releaseRsa with mem := t.mem, ok := true, err := none } ∧
      t.mem.readBytes s.dst.toNat 256 =
        bytesN 256 (be (s.mem.readBytes s.src.toNat 256) ^ r.e % r.n) ∧
      sameOutside s.dst.toNat 256 s.mem t.mem

/-- R221: RSA_DERIVE on a loaded private key (`RsaInv`) with its range in order: where P and Q are
coprime it commits `D mod (P−1)`, `D mod (Q−1)` and the inverse of Q modulo P to the registers and to
the 384 bytes at DST, and to the same values where they were loaded already; otherwise it ends with
ModularInverseUndefined and changes nothing else. -/
def Obligations.RsaDeriveCompletesTheKey : Prop :=
  ∀ s : State, s.RsaInv → s.rsast = .valid → s.hasPriv = true →
    rangeOK s.backed s.dst.toNat 384 = true →
    let p := s.rsaP.toNat
    let q := s.rsaQ.toNat
    (Nat.Coprime p q → ∃ t, exec .rsaDerive s = .next t ∧
      t = { s with
        rsaDP := t.rsaDP, rsaDQ := t.rsaDQ, rsaQP := t.rsaQP, hasCrt := true, mem := t.mem,
        ok := true, err := none } ∧
      t.rsaDP.toNat = s.rsaD.toNat % (p - 1) ∧ t.rsaDQ.toNat = s.rsaD.toNat % (q - 1) ∧
      t.rsaQP.toNat < p ∧ t.rsaQP.toNat * q % p = 1 ∧
      (s.hasCrt = true → t.rsaDP = s.rsaDP ∧ t.rsaDQ = s.rsaDQ ∧ t.rsaQP = s.rsaQP) ∧
      t.mem.readBytes s.dst.toNat 384 =
        bytesN 128 t.rsaDP.toNat ++ bytesN 128 t.rsaDQ.toNat ++ bytesN 128 t.rsaQP.toNat ∧
      sameOutside s.dst.toNat 384 s.mem t.mem) ∧
    (¬Nat.Coprime p q →
      exec .rsaDerive s = .next { s with ok := false, err := some .modularInverseUndefined })

/-- R222, which the spec derives from R215, R217, R219 and R186: for a record that loads with HASPRIV
= 1 and whose P and Q are distinct primes, the signature `EM(h)^D mod N` of a hash verifies, RSA_RAW
on it writes `EM(h)`, and flipping any one of its bits makes RSA_VERIFY end with
PaddingOrDigestMismatch. -/
def Obligations.SignatureOfTheHashVerifies : Prop :=
  ∀ (s : State) (r : KeyRecord) (crt : Bool), s.rsast = .uninit →
    rangeOK s.backed s.keyptr.toNat 1176 = true → rangeOK s.backed s.src.toNat 256 = true →
    rangeOK s.backed s.aux.toNat 32 = true → s.keyRecord = some r →
    publicCheck r.n r.e = true → privateCheck r = some (true, crt) →
    r.p.Prime → r.q.Prime → r.p ≠ r.q →
    let em := encodedMessage (s.mem.readBytes s.aux.toNat 32)
    let sig := be em ^ r.d % r.n
    let block := s.mem.readBytes s.src.toNat 256
    (block = bytesN 256 sig →
      exec .rsaVerify s = .next { s.releaseRsa with ok := true, err := none } ∧
      (rangeOK s.backed s.dst.toNat 256 = true → ∃ t, exec .rsaRaw s = .next t ∧ t.ok = true ∧
        t.mem.readBytes s.dst.toNat 256 = em)) ∧
    ∀ k < 2048, block = bytesN 256 (sig ^^^ 2 ^ k) →
      exec .rsaVerify s = .next { s.releaseRsa with
        ok := false, err := some .paddingOrDigestMismatch }

/-! ### Steps and invariants -/

/-- R265, R268, which the spec derives, and R10, R52, R53: every step from every state reaches a next
state, but for a host action on buffer memory outside what the platform backs, which is the model's
one fault (log entry 6); no step is refused. The host's load answers the bytes at its addresses and
changes nothing else; its store makes them read as the bytes given, and changes no other byte and no
register. Reading and writing strings and blocks of buffer memory is reading and writing their bytes,
lowest address first. -/
def Obligations.StepsStopOnlyOnUnbackedHostAccess : Prop :=
  (∀ s : State,
    (s.queue = [] → step s = .next s) ∧
    ∀ (a : HostAction) (rest : List HostAction), s.queue = a :: rest →
      (a.withinPlatform s.backed = true → ∃ t, step s = .next t ∧ t.queue = rest ∧
        t.backed = s.backed) ∧
      (a.withinPlatform s.backed = false → step s = .fault .hostRangeUnbacked) ∧
      (∀ addr n, a = .memLoad addr n → rangeOK s.backed addr n = true →
        step s = .next { s with
          queue := rest, reply := .bytes (s.mem.readBytes addr n) }) ∧
      ∀ addr bytes, a = .memStore addr bytes → rangeOK s.backed addr bytes.length = true →
        ∃ m : Memory, step s = .next { s with queue := rest, mem := m, reply := .done } ∧
          m.readBytes addr bytes.length = bytes ∧ sameOutside addr bytes.length s.mem m) ∧
  ∀ (m : Memory) (a : Nat),
    (∀ n, (m.readBytes a n).length = n ∧
      ∀ i < n, (m.readBytes a n).getD i 0 = m.read (a + i)) ∧
    (∀ i < 16, (m.readBlock a).get i = m.read (a + i)) ∧
    (∀ b : Bytes, (∀ i < b.length, (m.writeBytes a b).read (a + i) = b.getD i 0) ∧
      sameOutside a b.length m (m.writeBytes a b)) ∧
    ∀ b : Block, (∀ i < 16, (m.writeBlock a b).read (a + i) = b.get i) ∧
      sameOutside a 16 m (m.writeBlock a b)

/-- The model's invariants hold in the state after reset (R29; the platform and the memory of
`State.reset` are the model's, log entries 1 and 2). -/
def Obligations.ResetMeetsTheInvariants : Prop :=
  State.reset.MemInv ∧ State.reset.AesInv ∧ State.reset.RsaInv

/-- Buffer memory keeps its canonical form, and no byte is ever stored outside the platform's memory
(R50, R51, R263): kept by every step from every state that has it. -/
def Obligations.StepKeepsMemoryInvariant : Prop :=
  ∀ s t : State, s.MemInv → step s = .next t → t.MemInv

/-- R17, R250: the AES sub-state is zero until it is initialised, and the register of an engine other
than the one initialised stays zero: kept by every step. -/
def Obligations.StepKeepsAesInvariant : Prop :=
  ∀ s t : State, s.AesInv → step s = .next t → t.AesInv

/-- R24, R26, R27: the relations between RSAST, the two flags and the big-integer registers: kept by
every step. -/
def Obligations.StepKeepsRsaInvariant : Prop :=
  ∀ s t : State, s.RsaInv → step s = .next t → t.RsaInv
end

