-- ==== Sys2Proof/Laws/Bytes.lean ====
section
/-! SUPPORT. Laws of byte strings, their big-endian integers (00_scope.md R7) and 16-byte blocks. -/

namespace Sys2Proof

/-! ### Blocks -/

theorem Block.ext_bytes {a b : Block} (h : a.bytes = b.bytes) : a = b := by
  cases a; cases b; cases h; rfl

@[simp] theorem Block.length_bytes (b : Block) : b.bytes.length = 16 := b.len

@[simp] theorem Block.get_build (f : Nat → Byte) {i : Nat} (h : i < 16) :
    (Block.build f).get i = f i := by
  simp [Block.build, Block.get, List.getD, h]

theorem Block.get_eq (b : Block) {i : Nat} (h : i < 16) :
    b.get i = b.bytes[i]'(by simpa using h) := by
  simp [Block.get, List.getD, h]

/-- Two blocks with the same sixteen bytes are equal. -/
theorem Block.ext_get {a b : Block} (h : ∀ i < 16, a.get i = b.get i) : a = b := by
  apply Block.ext_bytes
  apply List.ext_getElem (by simp)
  intro i h1 h2
  have hi : i < 16 := by simpa using h1
  rw [← Block.get_eq a hi, ← Block.get_eq b hi, h i hi]

@[simp] theorem Block.build_get (b : Block) : (Block.build fun i => b.get i) = b :=
  Block.ext_get fun _ hi => Block.get_build _ hi

@[simp] theorem Block.get_xor (a b : Block) {i : Nat} (h : i < 16) :
    (a.xor b).get i = a.get i ^^^ b.get i := Block.get_build _ h

@[simp] theorem Block.get_zeros (i : Nat) : Block.zeros.get i = 0 := by
  simp only [Block.zeros, Block.get, List.getD, List.getElem?_replicate]
  split <;> rfl

theorem Block.xor_xor_self (a b : Block) : (a.xor b).xor b = a :=
  Block.ext_get fun i hi => by simp [hi]

@[simp] theorem Block.xor_zeros (a : Block) : a.xor Block.zeros = a :=
  Block.ext_get fun i hi => by simp [hi]

theorem Block.xor_comm (a b : Block) : a.xor b = b.xor a :=
  Block.ext_get fun i hi => by simp [hi, BitVec.xor_comm]

/-! ### Big-endian integers -/

theorem be_foldl (b : Bytes) (acc : Nat) :
    b.foldl (fun acc x => acc * 256 + x.toNat) acc = acc * 256 ^ b.length + be b := by
  induction b generalizing acc with
  | nil => simp [be]
  | cons x xs ih =>
    simp only [be, List.foldl_cons, List.length_cons]
    rw [ih, ih (0 * 256 + x.toNat)]
    ring

@[simp] theorem be_nil : be [] = 0 := rfl

theorem be_cons (x : Byte) (xs : Bytes) : be (x :: xs) = x.toNat * 256 ^ xs.length + be xs := by
  simp only [be, List.foldl_cons]
  rw [be_foldl]; simp [be]

theorem be_append (a b : Bytes) : be (a ++ b) = be a * 256 ^ b.length + be b := by
  simp only [be, List.foldl_append]
  rw [be_foldl]; rfl

theorem be_lt (b : Bytes) : be b < 256 ^ b.length := by
  induction b with
  | nil => simp
  | cons x xs ih =>
    rw [be_cons, List.length_cons, pow_succ]
    have hx : x.toNat < 256 := x.isLt
    nlinarith [Nat.pow_pos (n := xs.length) (show 0 < 256 by norm_num)]

@[simp] theorem bytesN_length (n v : Nat) : (bytesN n v).length = n := by
  induction n with
  | zero => rfl
  | succ n ih => simp [bytesN, ih]

/-- The integer of `bytesN n v` is `v` modulo `256^n`. -/
theorem be_bytesN_mod (n v : Nat) : be (bytesN n v) = v % 256 ^ n := by
  induction n with
  | zero => simp [bytesN, Nat.mod_one]
  | succ n ih =>
    rw [bytesN, be_cons, ih, bytesN_length, BitVec.toNat_ofNat, Nat.pow_succ 256 n,
      Nat.mod_mul, Nat.mul_comm (256 ^ n), Nat.add_comm]

/-- R7: `be(bytes_n(v)) = v` for `v < 256^n`. -/
theorem be_bytesN {n v : Nat} (h : v < 256 ^ n) : be (bytesN n v) = v := by
  rw [be_bytesN_mod, Nat.mod_eq_of_lt h]

/-- A byte string is determined by its length and its integer. -/
theorem be_injective {a b : Bytes} (hl : a.length = b.length) (h : be a = be b) : a = b := by
  induction a generalizing b with
  | nil => cases b with
    | nil => rfl
    | cons => simp at hl
  | cons x xs ih =>
    cases b with
    | nil => simp at hl
    | cons y ys =>
      have hl' : xs.length = ys.length := by simpa using hl
      rw [be_cons, be_cons, hl'] at h
      have h1 := be_lt xs
      have h2 := be_lt ys
      rw [hl'] at h1
      have hxy : x.toNat = y.toNat := by
        have e1 : (x.toNat * 256 ^ ys.length + be xs) / 256 ^ ys.length = x.toNat := by
          rw [Nat.mul_comm, Nat.mul_add_div (by positivity), Nat.div_eq_of_lt h1, Nat.add_zero]
        have e2 : (y.toNat * 256 ^ ys.length + be ys) / 256 ^ ys.length = y.toNat := by
          rw [Nat.mul_comm, Nat.mul_add_div (by positivity), Nat.div_eq_of_lt h2, Nat.add_zero]
        rw [← e1, ← e2, h]
      rw [hxy] at h
      rw [BitVec.eq_of_toNat_eq hxy, ih hl' (by omega)]

theorem bytesN_be (b : Bytes) : bytesN b.length (be b) = b :=
  be_injective (by simp) (be_bytesN (be_lt b))

theorem Block.toNat_lt (b : Block) : b.toNat < 2 ^ 128 := by
  have := be_lt b.bytes
  rw [b.len] at this
  exact this.trans_le (by norm_num)

theorem Block.toNat_injective {a b : Block} (h : a.toNat = b.toNat) : a = b :=
  Block.ext_bytes (be_injective (by simp) h)

@[simp] theorem slice_length (b : Bytes) (i j : Nat) :
    (slice b i j).length = min (j - i) (b.length - i) := by
  simp [slice]

theorem xorBytes_length (a b : Bytes) : (xorBytes a b).length = min a.length b.length := by
  simp [xorBytes]

end Sys2Proof
end

