-- ==== Sys2Proof/Laws/Memory.lean ====
section
/-! SUPPORT. Laws of buffer memory (20_memory.md R50 to R53): what a read gives after a write, that
writes keep the canonical form, and what RangeOK says. -/

namespace Sys2Proof.Machine

/-! ### One byte -/

theorem Memory.read_insert (c : Host.Cell) (m : Memory) (b : Nat)
    (h : ∀ d ∈ m, d.1 ≠ c.1) :
    Memory.read (Memory.insert c m) b = if b = c.1 then c.2 else Memory.read m b := by
  induction m with
  | nil =>
    by_cases hb : c.1 = b
    · simp [Memory.insert, Memory.read, hb]
    · simp [Memory.insert, Memory.read, hb, Ne.symm hb]
  | cons d m ih =>
    have hd : d.1 ≠ c.1 := h d (by simp)
    have ih := ih fun e he => h e (by simp [he])
    simp only [Memory.insert]
    split
    · by_cases hb : c.1 = b
      · simp [Memory.read, hb]
      · rw [Memory.read, if_neg hb, if_neg (Ne.symm hb)]
    · simp only [Memory.read, ih]
      by_cases hb : d.1 = b
      · rw [if_pos hb, if_pos hb, if_neg (by omega)]
      · rw [if_neg hb, if_neg hb]

theorem Memory.read_filter (m : Memory) (a b : Nat) :
    Memory.read (m.filter fun c => decide (c.1 ≠ a)) b =
      if b = a then Config.unlistedByte else Memory.read m b := by
  induction m with
  | nil => simp [Memory.read]
  | cons c m ih =>
    by_cases hc : c.1 = a
    · rw [List.filter_cons_of_neg (by simp [hc]), ih]
      by_cases hb : b = a
      · rw [if_pos hb, if_pos hb]
      · rw [if_neg hb, if_neg hb, Memory.read, if_neg (by omega)]
    · rw [List.filter_cons_of_pos (by simp [hc]), Memory.read, Memory.read, ih]
      by_cases hb : c.1 = b
      · rw [if_pos hb, if_pos hb, if_neg (by omega)]
      · rw [if_neg hb, if_neg hb]

/-- A read after a write: the byte written at its address, every other byte as before. It holds of
every list of cells, canonical or not. -/
theorem Memory.read_write (m : Memory) (a : Nat) (v : Byte) (b : Nat) :
    Memory.read (Memory.write m a v) b = if b = a then v else Memory.read m b := by
  simp only [Memory.write]
  split
  · rename_i hv; rw [Memory.read_filter, hv]
  · rw [Memory.read_insert _ _ _ (by simp), Memory.read_filter]
    split <;> simp_all

theorem Memory.wf_cons (c : Host.Cell) (m : Memory) :
    Memory.wf (c :: m) = true ↔
      c.2 ≠ Config.unlistedByte ∧ (∀ d ∈ m, c.1 < d.1) ∧ Memory.wf m = true := by
  simp [Memory.wf, and_assoc]

theorem Memory.wf_filter {m : Memory} (h : m.wf = true) (p : Host.Cell → Bool) :
    Memory.wf (m.filter p) = true := by
  induction m with
  | nil => rfl
  | cons c m ih =>
    obtain ⟨h1, h2, h3⟩ := (Memory.wf_cons c m).1 h
    simp only [List.filter_cons]
    split
    · exact (Memory.wf_cons _ _).2 ⟨h1, fun d hd => h2 d (List.mem_filter.1 hd).1, ih h3⟩
    · exact ih h3

theorem Memory.mem_insert (c d : Host.Cell) (m : Memory) :
    d ∈ Memory.insert c m ↔ d = c ∨ d ∈ m := by
  induction m with
  | nil => simp [Memory.insert]
  | cons e m ih =>
    simp only [Memory.insert]
    split
    · simp
    · simp only [List.mem_cons, ih]; tauto

theorem Memory.wf_insert {c : Host.Cell} {m : Memory} (h : m.wf = true)
    (hc : c.2 ≠ Config.unlistedByte) (hne : ∀ d ∈ m, d.1 ≠ c.1) :
    Memory.wf (Memory.insert c m) = true := by
  induction m with
  | nil => simp [Memory.insert, Memory.wf, hc]
  | cons e m ih =>
    obtain ⟨h1, h2, h3⟩ := (Memory.wf_cons e m).1 h
    have he : e.1 ≠ c.1 := hne e (by simp)
    simp only [Memory.insert]
    split
    · rename_i hlt
      refine (Memory.wf_cons _ _).2 ⟨hc, ?_, h⟩
      intro d hd
      rcases List.mem_cons.1 hd with rfl | hd
      · exact hlt
      · exact hlt.trans (h2 d hd)
    · rename_i hlt
      refine (Memory.wf_cons _ _).2 ⟨h1, ?_, ih h3 fun d hd => hne d (by simp [hd])⟩
      intro d hd
      rcases (Memory.mem_insert _ _ _).1 hd with rfl | hd
      · omega
      · exact h2 d hd

/-- A write keeps the canonical form. -/
theorem Memory.wf_write {m : Memory} (h : m.wf = true) (a : Nat) (v : Byte) :
    Memory.wf (Memory.write m a v) = true := by
  simp only [Memory.write]
  split
  · exact Memory.wf_filter h _
  · rename_i hv
    exact Memory.wf_insert (Memory.wf_filter h _) hv (by simp)

theorem Memory.mem_write {m : Memory} {a : Nat} {v : Byte} {c : Host.Cell}
    (h : c ∈ Memory.write m a v) : c = (a, v) ∨ c ∈ m := by
  simp only [Memory.write] at h
  split at h
  · exact .inr (List.mem_filter.1 h).1
  · rcases (Memory.mem_insert _ _ _).1 h with h | h
    · exact .inl h
    · exact .inr (List.mem_filter.1 h).1

/-! ### Byte strings -/

@[simp] theorem Memory.readBytes_length (m : Memory) (a n : Nat) : (m.readBytes a n).length = n := by
  simp [Memory.readBytes]

theorem Memory.readBytes_getElem (m : Memory) (a n i : Nat) (h : i < (m.readBytes a n).length) :
    (m.readBytes a n)[i] = m.read (a + i) := by
  simp [Memory.readBytes]

@[simp] theorem Memory.readBlock_get (m : Memory) (a : Nat) {i : Nat} (h : i < 16) :
    (m.readBlock a).get i = m.read (a + i) := Block.get_build _ h

theorem Memory.readBlock_bytes (m : Memory) (a : Nat) : (m.readBlock a).bytes = m.readBytes a 16 := rfl

/-- R53: after `MemWrite(a, n, v)` the byte at `a + i` is `v[i]`, and every other byte is as it
was. -/
theorem Memory.read_writeBytes (m : Memory) (a : Nat) (v : Bytes) (b : Nat) :
    (m.writeBytes a v).read b =
      if a ≤ b ∧ b < a + v.length then v.getD (b - a) 0 else m.read b := by
  induction v generalizing m a with
  | nil =>
    simp only [Memory.writeBytes, List.length_nil]
    rw [if_neg (by omega)]
  | cons x xs ih =>
    simp only [Memory.writeBytes, ih, List.length_cons, Memory.read_write]
    by_cases h1 : b = a
    · subst h1
      rw [if_neg (by omega), if_pos rfl, if_pos (by omega)]; simp
    · by_cases h2 : a + 1 ≤ b ∧ b < a + 1 + xs.length
      · rw [if_pos h2, if_pos (by omega)]
        have : b - a = (b - (a + 1)) + 1 := by omega
        rw [this]; simp
      · rw [if_neg h2, if_neg h1, if_neg (by omega)]

theorem Memory.read_writeBytes_outside (m : Memory) (a : Nat) (v : Bytes) :
    sameOutside a v.length m (m.writeBytes a v) := fun b hb => by
  rw [Memory.read_writeBytes, if_neg (by omega)]

theorem Memory.readBytes_writeBytes (m : Memory) (a : Nat) (v : Bytes) :
    (m.writeBytes a v).readBytes a v.length = v := by
  apply List.ext_getElem (by simp)
  intro i h1 h2
  rw [Memory.readBytes_getElem, Memory.read_writeBytes, if_pos (by omega)]
  simp [List.getD, h2]

theorem Memory.read_writeBlock (m : Memory) (a : Nat) (x : Block) (b : Nat) :
    (m.writeBlock a x).read b = if a ≤ b ∧ b < a + 16 then x.get (b - a) else m.read b := by
  rw [Memory.writeBlock, Memory.read_writeBytes, x.len]; rfl

theorem Memory.readBlock_writeBlock (m : Memory) (a : Nat) (x : Block) :
    (m.writeBlock a x).readBlock a = x :=
  Block.ext_get fun i hi => by
    rw [Memory.readBlock_get _ _ hi, Memory.read_writeBlock, if_pos (by omega)]; simp

theorem Memory.wf_writeBytes {m : Memory} (h : m.wf = true) (a : Nat) (v : Bytes) :
    (m.writeBytes a v).wf = true := by
  induction v generalizing m a with
  | nil => exact h
  | cons x xs ih => exact ih (Memory.wf_write h a x) _

theorem Memory.wf_writeBlock {m : Memory} (h : m.wf = true) (a : Nat) (x : Block) :
    (m.writeBlock a x).wf = true := Memory.wf_writeBytes h a x.bytes

theorem Memory.mem_writeBytes {m : Memory} {a : Nat} {v : Bytes} {c : Host.Cell}
    (h : c ∈ m.writeBytes a v) : (a ≤ c.1 ∧ c.1 < a + v.length) ∨ c ∈ m := by
  induction v generalizing m a with
  | nil => exact .inr h
  | cons x xs ih =>
    rcases ih h with ⟨h1, h2⟩ | h1
    · left; simp only [List.length_cons]; omega
    · rcases Memory.mem_write h1 with rfl | h1
      · left; simp only [List.length_cons]; omega
      · exact .inr h1

/-! ### RangeOK (R51) -/

theorem allBacked_iff (backed : List Region) (a n : Nat) :
    allBacked backed a n = true ↔ ∀ i < n, isBacked backed (a + i) = true := by
  induction n generalizing a with
  | zero => simp [allBacked]
  | succ n ih =>
    simp only [allBacked, Bool.and_eq_true, ih]
    constructor
    · rintro ⟨h0, h⟩ i hi
      cases i with
      | zero => exact h0
      | succ i => have := h i (by omega); rwa [show a + 1 + i = a + (i + 1) by omega] at this
    · intro h
      refine ⟨h 0 (by omega), fun i hi => ?_⟩
      have := h (i + 1) (by omega)
      rwa [show a + (i + 1) = a + 1 + i by omega] at this

/-- R51 as the rule states it. -/
theorem rangeOK_iff (backed : List Region) (a n : Nat) :
    rangeOK backed a n = true ↔
      n = 0 ∨ (a + n ≤ 2 ^ 32 ∧ ∀ i < n, isBacked backed (a + i) = true) := by
  rw [show (2 : Nat) ^ 32 = Config.addrSpace from rfl]
  simp [rangeOK, allBacked_iff]

@[simp] theorem rangeOK_zero (backed : List Region) (a : Nat) : rangeOK backed a 0 = true := rfl

/-- A range that is in order contains every shorter range within it. -/
theorem rangeOK_sub {backed : List Region} {a n : Nat} (h : rangeOK backed a n = true) {i k : Nat}
    (hk : i + k ≤ n) : rangeOK backed (a + i) k = true := by
  rw [rangeOK_iff] at *
  rcases h with h | ⟨h1, h2⟩
  · left; omega
  · right
    refine ⟨by omega, fun j hj => ?_⟩
    rw [Nat.add_assoc]; exact h2 _ (by omega)

theorem Memory.within_writeBytes {backed : List Region} {m : Memory} {a : Nat} {v : Bytes}
    (h : m.within backed = true) (hr : rangeOK backed a v.length = true) :
    (m.writeBytes a v).within backed = true := by
  simp only [Memory.within, List.all_eq_true, Bool.and_eq_true, decide_eq_true_eq] at *
  intro c hc
  rcases Memory.mem_writeBytes hc with ⟨h1, h2⟩ | hc
  · rcases (rangeOK_iff _ _ _).1 hr with h0 | ⟨h3, h4⟩
    · omega
    · refine ⟨by simp only [Config.addrSpace]; omega, ?_⟩
      have := h4 (c.1 - a) (by omega)
      rwa [show a + (c.1 - a) = c.1 by omega] at this
  · exact h c hc

theorem reset_mem_wf : State.reset.mem.wf = true := rfl

end Sys2Proof.Machine
end

