-- ==== Sys2Proof/Laws/State.lean ====
section
/-! SUPPORT. One lemma per field and named update of the state (Machine/Ops.lean, Machine/RsaKey.lean),
so that no proof unfolds an update. -/

namespace Sys2Proof.Machine

variable (s : State)

@[simp] theorem State.finish_key : (s.finish).key = s.key := rfl
@[simp] theorem State.finish_mode : (s.finish).mode = s.mode := rfl
@[simp] theorem State.finish_ctr : (s.finish).ctr = s.ctr := rfl
@[simp] theorem State.finish_iv : (s.finish).iv = s.iv := rfl
@[simp] theorem State.finish_keyin : (s.finish).keyin = s.keyin := rfl
@[simp] theorem State.finish_vecin : (s.finish).vecin = s.vecin := rfl
@[simp] theorem State.finish_src : (s.finish).src = s.src := rfl
@[simp] theorem State.finish_dst : (s.finish).dst = s.dst := rfl
@[simp] theorem State.finish_len : (s.finish).len = s.len := rfl
@[simp] theorem State.finish_keyptr : (s.finish).keyptr = s.keyptr := rfl
@[simp] theorem State.finish_aux : (s.finish).aux = s.aux := rfl
@[simp] theorem State.finish_ok : (s.finish).ok = true := rfl
@[simp] theorem State.finish_err : (s.finish).err = none := rfl
@[simp] theorem State.finish_rsast : (s.finish).rsast = s.rsast := rfl
@[simp] theorem State.finish_rsaN : (s.finish).rsaN = s.rsaN := rfl
@[simp] theorem State.finish_rsaE : (s.finish).rsaE = s.rsaE := rfl
@[simp] theorem State.finish_rsaD : (s.finish).rsaD = s.rsaD := rfl
@[simp] theorem State.finish_rsaP : (s.finish).rsaP = s.rsaP := rfl
@[simp] theorem State.finish_rsaQ : (s.finish).rsaQ = s.rsaQ := rfl
@[simp] theorem State.finish_rsaDP : (s.finish).rsaDP = s.rsaDP := rfl
@[simp] theorem State.finish_rsaDQ : (s.finish).rsaDQ = s.rsaDQ := rfl
@[simp] theorem State.finish_rsaQP : (s.finish).rsaQP = s.rsaQP := rfl
@[simp] theorem State.finish_hasPriv : (s.finish).hasPriv = s.hasPriv := rfl
@[simp] theorem State.finish_hasCrt : (s.finish).hasCrt = s.hasCrt := rfl
@[simp] theorem State.finish_mem : (s.finish).mem = s.mem := rfl
@[simp] theorem State.finish_backed : (s.finish).backed = s.backed := rfl
@[simp] theorem State.finish_queue : (s.finish).queue = s.queue := rfl
@[simp] theorem State.finish_reply : (s.finish).reply = s.reply := rfl

@[simp] theorem State.raise_key (k : ErrorKind) : (s.raise k).key = s.key := rfl
@[simp] theorem State.raise_mode (k : ErrorKind) : (s.raise k).mode = s.mode := rfl
@[simp] theorem State.raise_ctr (k : ErrorKind) : (s.raise k).ctr = s.ctr := rfl
@[simp] theorem State.raise_iv (k : ErrorKind) : (s.raise k).iv = s.iv := rfl
@[simp] theorem State.raise_keyin (k : ErrorKind) : (s.raise k).keyin = s.keyin := rfl
@[simp] theorem State.raise_vecin (k : ErrorKind) : (s.raise k).vecin = s.vecin := rfl
@[simp] theorem State.raise_src (k : ErrorKind) : (s.raise k).src = s.src := rfl
@[simp] theorem State.raise_dst (k : ErrorKind) : (s.raise k).dst = s.dst := rfl
@[simp] theorem State.raise_len (k : ErrorKind) : (s.raise k).len = s.len := rfl
@[simp] theorem State.raise_keyptr (k : ErrorKind) : (s.raise k).keyptr = s.keyptr := rfl
@[simp] theorem State.raise_aux (k : ErrorKind) : (s.raise k).aux = s.aux := rfl
@[simp] theorem State.raise_ok (k : ErrorKind) : (s.raise k).ok = false := rfl
@[simp] theorem State.raise_err (k : ErrorKind) : (s.raise k).err = some k := rfl
@[simp] theorem State.raise_rsast (k : ErrorKind) : (s.raise k).rsast = s.rsast := rfl
@[simp] theorem State.raise_rsaN (k : ErrorKind) : (s.raise k).rsaN = s.rsaN := rfl
@[simp] theorem State.raise_rsaE (k : ErrorKind) : (s.raise k).rsaE = s.rsaE := rfl
@[simp] theorem State.raise_rsaD (k : ErrorKind) : (s.raise k).rsaD = s.rsaD := rfl
@[simp] theorem State.raise_rsaP (k : ErrorKind) : (s.raise k).rsaP = s.rsaP := rfl
@[simp] theorem State.raise_rsaQ (k : ErrorKind) : (s.raise k).rsaQ = s.rsaQ := rfl
@[simp] theorem State.raise_rsaDP (k : ErrorKind) : (s.raise k).rsaDP = s.rsaDP := rfl
@[simp] theorem State.raise_rsaDQ (k : ErrorKind) : (s.raise k).rsaDQ = s.rsaDQ := rfl
@[simp] theorem State.raise_rsaQP (k : ErrorKind) : (s.raise k).rsaQP = s.rsaQP := rfl
@[simp] theorem State.raise_hasPriv (k : ErrorKind) : (s.raise k).hasPriv = s.hasPriv := rfl
@[simp] theorem State.raise_hasCrt (k : ErrorKind) : (s.raise k).hasCrt = s.hasCrt := rfl
@[simp] theorem State.raise_mem (k : ErrorKind) : (s.raise k).mem = s.mem := rfl
@[simp] theorem State.raise_backed (k : ErrorKind) : (s.raise k).backed = s.backed := rfl
@[simp] theorem State.raise_queue (k : ErrorKind) : (s.raise k).queue = s.queue := rfl
@[simp] theorem State.raise_reply (k : ErrorKind) : (s.raise k).reply = s.reply := rfl

@[simp] theorem State.setMem_key (m : Memory) : (s.setMem m).key = s.key := rfl
@[simp] theorem State.setMem_mode (m : Memory) : (s.setMem m).mode = s.mode := rfl
@[simp] theorem State.setMem_ctr (m : Memory) : (s.setMem m).ctr = s.ctr := rfl
@[simp] theorem State.setMem_iv (m : Memory) : (s.setMem m).iv = s.iv := rfl
@[simp] theorem State.setMem_keyin (m : Memory) : (s.setMem m).keyin = s.keyin := rfl
@[simp] theorem State.setMem_vecin (m : Memory) : (s.setMem m).vecin = s.vecin := rfl
@[simp] theorem State.setMem_src (m : Memory) : (s.setMem m).src = s.src := rfl
@[simp] theorem State.setMem_dst (m : Memory) : (s.setMem m).dst = s.dst := rfl
@[simp] theorem State.setMem_len (m : Memory) : (s.setMem m).len = s.len := rfl
@[simp] theorem State.setMem_keyptr (m : Memory) : (s.setMem m).keyptr = s.keyptr := rfl
@[simp] theorem State.setMem_aux (m : Memory) : (s.setMem m).aux = s.aux := rfl
@[simp] theorem State.setMem_ok (m : Memory) : (s.setMem m).ok = s.ok := rfl
@[simp] theorem State.setMem_err (m : Memory) : (s.setMem m).err = s.err := rfl
@[simp] theorem State.setMem_rsast (m : Memory) : (s.setMem m).rsast = s.rsast := rfl
@[simp] theorem State.setMem_rsaN (m : Memory) : (s.setMem m).rsaN = s.rsaN := rfl
@[simp] theorem State.setMem_rsaE (m : Memory) : (s.setMem m).rsaE = s.rsaE := rfl
@[simp] theorem State.setMem_rsaD (m : Memory) : (s.setMem m).rsaD = s.rsaD := rfl
@[simp] theorem State.setMem_rsaP (m : Memory) : (s.setMem m).rsaP = s.rsaP := rfl
@[simp] theorem State.setMem_rsaQ (m : Memory) : (s.setMem m).rsaQ = s.rsaQ := rfl
@[simp] theorem State.setMem_rsaDP (m : Memory) : (s.setMem m).rsaDP = s.rsaDP := rfl
@[simp] theorem State.setMem_rsaDQ (m : Memory) : (s.setMem m).rsaDQ = s.rsaDQ := rfl
@[simp] theorem State.setMem_rsaQP (m : Memory) : (s.setMem m).rsaQP = s.rsaQP := rfl
@[simp] theorem State.setMem_hasPriv (m : Memory) : (s.setMem m).hasPriv = s.hasPriv := rfl
@[simp] theorem State.setMem_hasCrt (m : Memory) : (s.setMem m).hasCrt = s.hasCrt := rfl
@[simp] theorem State.setMem_mem (m : Memory) : (s.setMem m).mem = m := rfl
@[simp] theorem State.setMem_backed (m : Memory) : (s.setMem m).backed = s.backed := rfl
@[simp] theorem State.setMem_queue (m : Memory) : (s.setMem m).queue = s.queue := rfl
@[simp] theorem State.setMem_reply (m : Memory) : (s.setMem m).reply = s.reply := rfl

@[simp] theorem State.setCtr_key (c : Block) : (s.setCtr c).key = s.key := rfl
@[simp] theorem State.setCtr_mode (c : Block) : (s.setCtr c).mode = s.mode := rfl
@[simp] theorem State.setCtr_ctr (c : Block) : (s.setCtr c).ctr = c := rfl
@[simp] theorem State.setCtr_iv (c : Block) : (s.setCtr c).iv = s.iv := rfl
@[simp] theorem State.setCtr_keyin (c : Block) : (s.setCtr c).keyin = s.keyin := rfl
@[simp] theorem State.setCtr_vecin (c : Block) : (s.setCtr c).vecin = s.vecin := rfl
@[simp] theorem State.setCtr_src (c : Block) : (s.setCtr c).src = s.src := rfl
@[simp] theorem State.setCtr_dst (c : Block) : (s.setCtr c).dst = s.dst := rfl
@[simp] theorem State.setCtr_len (c : Block) : (s.setCtr c).len = s.len := rfl
@[simp] theorem State.setCtr_keyptr (c : Block) : (s.setCtr c).keyptr = s.keyptr := rfl
@[simp] theorem State.setCtr_aux (c : Block) : (s.setCtr c).aux = s.aux := rfl
@[simp] theorem State.setCtr_ok (c : Block) : (s.setCtr c).ok = s.ok := rfl
@[simp] theorem State.setCtr_err (c : Block) : (s.setCtr c).err = s.err := rfl
@[simp] theorem State.setCtr_rsast (c : Block) : (s.setCtr c).rsast = s.rsast := rfl
@[simp] theorem State.setCtr_rsaN (c : Block) : (s.setCtr c).rsaN = s.rsaN := rfl
@[simp] theorem State.setCtr_rsaE (c : Block) : (s.setCtr c).rsaE = s.rsaE := rfl
@[simp] theorem State.setCtr_rsaD (c : Block) : (s.setCtr c).rsaD = s.rsaD := rfl
@[simp] theorem State.setCtr_rsaP (c : Block) : (s.setCtr c).rsaP = s.rsaP := rfl
@[simp] theorem State.setCtr_rsaQ (c : Block) : (s.setCtr c).rsaQ = s.rsaQ := rfl
@[simp] theorem State.setCtr_rsaDP (c : Block) : (s.setCtr c).rsaDP = s.rsaDP := rfl
@[simp] theorem State.setCtr_rsaDQ (c : Block) : (s.setCtr c).rsaDQ = s.rsaDQ := rfl
@[simp] theorem State.setCtr_rsaQP (c : Block) : (s.setCtr c).rsaQP = s.rsaQP := rfl
@[simp] theorem State.setCtr_hasPriv (c : Block) : (s.setCtr c).hasPriv = s.hasPriv := rfl
@[simp] theorem State.setCtr_hasCrt (c : Block) : (s.setCtr c).hasCrt = s.hasCrt := rfl
@[simp] theorem State.setCtr_mem (c : Block) : (s.setCtr c).mem = s.mem := rfl
@[simp] theorem State.setCtr_backed (c : Block) : (s.setCtr c).backed = s.backed := rfl
@[simp] theorem State.setCtr_queue (c : Block) : (s.setCtr c).queue = s.queue := rfl
@[simp] theorem State.setCtr_reply (c : Block) : (s.setCtr c).reply = s.reply := rfl

@[simp] theorem State.setIv_key (v : Block) : (s.setIv v).key = s.key := rfl
@[simp] theorem State.setIv_mode (v : Block) : (s.setIv v).mode = s.mode := rfl
@[simp] theorem State.setIv_ctr (v : Block) : (s.setIv v).ctr = s.ctr := rfl
@[simp] theorem State.setIv_iv (v : Block) : (s.setIv v).iv = v := rfl
@[simp] theorem State.setIv_keyin (v : Block) : (s.setIv v).keyin = s.keyin := rfl
@[simp] theorem State.setIv_vecin (v : Block) : (s.setIv v).vecin = s.vecin := rfl
@[simp] theorem State.setIv_src (v : Block) : (s.setIv v).src = s.src := rfl
@[simp] theorem State.setIv_dst (v : Block) : (s.setIv v).dst = s.dst := rfl
@[simp] theorem State.setIv_len (v : Block) : (s.setIv v).len = s.len := rfl
@[simp] theorem State.setIv_keyptr (v : Block) : (s.setIv v).keyptr = s.keyptr := rfl
@[simp] theorem State.setIv_aux (v : Block) : (s.setIv v).aux = s.aux := rfl
@[simp] theorem State.setIv_ok (v : Block) : (s.setIv v).ok = s.ok := rfl
@[simp] theorem State.setIv_err (v : Block) : (s.setIv v).err = s.err := rfl
@[simp] theorem State.setIv_rsast (v : Block) : (s.setIv v).rsast = s.rsast := rfl
@[simp] theorem State.setIv_rsaN (v : Block) : (s.setIv v).rsaN = s.rsaN := rfl
@[simp] theorem State.setIv_rsaE (v : Block) : (s.setIv v).rsaE = s.rsaE := rfl
@[simp] theorem State.setIv_rsaD (v : Block) : (s.setIv v).rsaD = s.rsaD := rfl
@[simp] theorem State.setIv_rsaP (v : Block) : (s.setIv v).rsaP = s.rsaP := rfl
@[simp] theorem State.setIv_rsaQ (v : Block) : (s.setIv v).rsaQ = s.rsaQ := rfl
@[simp] theorem State.setIv_rsaDP (v : Block) : (s.setIv v).rsaDP = s.rsaDP := rfl
@[simp] theorem State.setIv_rsaDQ (v : Block) : (s.setIv v).rsaDQ = s.rsaDQ := rfl
@[simp] theorem State.setIv_rsaQP (v : Block) : (s.setIv v).rsaQP = s.rsaQP := rfl
@[simp] theorem State.setIv_hasPriv (v : Block) : (s.setIv v).hasPriv = s.hasPriv := rfl
@[simp] theorem State.setIv_hasCrt (v : Block) : (s.setIv v).hasCrt = s.hasCrt := rfl
@[simp] theorem State.setIv_mem (v : Block) : (s.setIv v).mem = s.mem := rfl
@[simp] theorem State.setIv_backed (v : Block) : (s.setIv v).backed = s.backed := rfl
@[simp] theorem State.setIv_queue (v : Block) : (s.setIv v).queue = s.queue := rfl
@[simp] theorem State.setIv_reply (v : Block) : (s.setIv v).reply = s.reply := rfl

@[simp] theorem State.initAes_key (m : Mode) : (s.initAes m).key = s.keyin := rfl
@[simp] theorem State.initAes_mode (m : Mode) : (s.initAes m).mode = m := rfl
@[simp] theorem State.initAes_ctr (m : Mode) : (s.initAes m).ctr = s.ctr := rfl
@[simp] theorem State.initAes_iv (m : Mode) : (s.initAes m).iv = s.iv := rfl
@[simp] theorem State.initAes_keyin (m : Mode) : (s.initAes m).keyin = s.keyin := rfl
@[simp] theorem State.initAes_vecin (m : Mode) : (s.initAes m).vecin = s.vecin := rfl
@[simp] theorem State.initAes_src (m : Mode) : (s.initAes m).src = s.src := rfl
@[simp] theorem State.initAes_dst (m : Mode) : (s.initAes m).dst = s.dst := rfl
@[simp] theorem State.initAes_len (m : Mode) : (s.initAes m).len = s.len := rfl
@[simp] theorem State.initAes_keyptr (m : Mode) : (s.initAes m).keyptr = s.keyptr := rfl
@[simp] theorem State.initAes_aux (m : Mode) : (s.initAes m).aux = s.aux := rfl
@[simp] theorem State.initAes_ok (m : Mode) : (s.initAes m).ok = s.ok := rfl
@[simp] theorem State.initAes_err (m : Mode) : (s.initAes m).err = s.err := rfl
@[simp] theorem State.initAes_rsast (m : Mode) : (s.initAes m).rsast = s.rsast := rfl
@[simp] theorem State.initAes_rsaN (m : Mode) : (s.initAes m).rsaN = s.rsaN := rfl
@[simp] theorem State.initAes_rsaE (m : Mode) : (s.initAes m).rsaE = s.rsaE := rfl
@[simp] theorem State.initAes_rsaD (m : Mode) : (s.initAes m).rsaD = s.rsaD := rfl
@[simp] theorem State.initAes_rsaP (m : Mode) : (s.initAes m).rsaP = s.rsaP := rfl
@[simp] theorem State.initAes_rsaQ (m : Mode) : (s.initAes m).rsaQ = s.rsaQ := rfl
@[simp] theorem State.initAes_rsaDP (m : Mode) : (s.initAes m).rsaDP = s.rsaDP := rfl
@[simp] theorem State.initAes_rsaDQ (m : Mode) : (s.initAes m).rsaDQ = s.rsaDQ := rfl
@[simp] theorem State.initAes_rsaQP (m : Mode) : (s.initAes m).rsaQP = s.rsaQP := rfl
@[simp] theorem State.initAes_hasPriv (m : Mode) : (s.initAes m).hasPriv = s.hasPriv := rfl
@[simp] theorem State.initAes_hasCrt (m : Mode) : (s.initAes m).hasCrt = s.hasCrt := rfl
@[simp] theorem State.initAes_mem (m : Mode) : (s.initAes m).mem = s.mem := rfl
@[simp] theorem State.initAes_backed (m : Mode) : (s.initAes m).backed = s.backed := rfl
@[simp] theorem State.initAes_queue (m : Mode) : (s.initAes m).queue = s.queue := rfl
@[simp] theorem State.initAes_reply (m : Mode) : (s.initAes m).reply = s.reply := rfl

@[simp] theorem State.releaseAes_key : (s.releaseAes).key = Block.zeros := rfl
@[simp] theorem State.releaseAes_mode : (s.releaseAes).mode = .none := rfl
@[simp] theorem State.releaseAes_ctr : (s.releaseAes).ctr = Block.zeros := rfl
@[simp] theorem State.releaseAes_iv : (s.releaseAes).iv = Block.zeros := rfl
@[simp] theorem State.releaseAes_keyin : (s.releaseAes).keyin = Block.zeros := rfl
@[simp] theorem State.releaseAes_vecin : (s.releaseAes).vecin = Block.zeros := rfl
@[simp] theorem State.releaseAes_src : (s.releaseAes).src = s.src := rfl
@[simp] theorem State.releaseAes_dst : (s.releaseAes).dst = s.dst := rfl
@[simp] theorem State.releaseAes_len : (s.releaseAes).len = s.len := rfl
@[simp] theorem State.releaseAes_keyptr : (s.releaseAes).keyptr = s.keyptr := rfl
@[simp] theorem State.releaseAes_aux : (s.releaseAes).aux = s.aux := rfl
@[simp] theorem State.releaseAes_ok : (s.releaseAes).ok = s.ok := rfl
@[simp] theorem State.releaseAes_err : (s.releaseAes).err = s.err := rfl
@[simp] theorem State.releaseAes_rsast : (s.releaseAes).rsast = s.rsast := rfl
@[simp] theorem State.releaseAes_rsaN : (s.releaseAes).rsaN = s.rsaN := rfl
@[simp] theorem State.releaseAes_rsaE : (s.releaseAes).rsaE = s.rsaE := rfl
@[simp] theorem State.releaseAes_rsaD : (s.releaseAes).rsaD = s.rsaD := rfl
@[simp] theorem State.releaseAes_rsaP : (s.releaseAes).rsaP = s.rsaP := rfl
@[simp] theorem State.releaseAes_rsaQ : (s.releaseAes).rsaQ = s.rsaQ := rfl
@[simp] theorem State.releaseAes_rsaDP : (s.releaseAes).rsaDP = s.rsaDP := rfl
@[simp] theorem State.releaseAes_rsaDQ : (s.releaseAes).rsaDQ = s.rsaDQ := rfl
@[simp] theorem State.releaseAes_rsaQP : (s.releaseAes).rsaQP = s.rsaQP := rfl
@[simp] theorem State.releaseAes_hasPriv : (s.releaseAes).hasPriv = s.hasPriv := rfl
@[simp] theorem State.releaseAes_hasCrt : (s.releaseAes).hasCrt = s.hasCrt := rfl
@[simp] theorem State.releaseAes_mem : (s.releaseAes).mem = s.mem := rfl
@[simp] theorem State.releaseAes_backed : (s.releaseAes).backed = s.backed := rfl
@[simp] theorem State.releaseAes_queue : (s.releaseAes).queue = s.queue := rfl
@[simp] theorem State.releaseAes_reply : (s.releaseAes).reply = s.reply := rfl

@[simp] theorem State.releaseRsa_key : (s.releaseRsa).key = s.key := rfl
@[simp] theorem State.releaseRsa_mode : (s.releaseRsa).mode = s.mode := rfl
@[simp] theorem State.releaseRsa_ctr : (s.releaseRsa).ctr = s.ctr := rfl
@[simp] theorem State.releaseRsa_iv : (s.releaseRsa).iv = s.iv := rfl
@[simp] theorem State.releaseRsa_keyin : (s.releaseRsa).keyin = s.keyin := rfl
@[simp] theorem State.releaseRsa_vecin : (s.releaseRsa).vecin = s.vecin := rfl
@[simp] theorem State.releaseRsa_src : (s.releaseRsa).src = s.src := rfl
@[simp] theorem State.releaseRsa_dst : (s.releaseRsa).dst = s.dst := rfl
@[simp] theorem State.releaseRsa_len : (s.releaseRsa).len = s.len := rfl
@[simp] theorem State.releaseRsa_keyptr : (s.releaseRsa).keyptr = s.keyptr := rfl
@[simp] theorem State.releaseRsa_aux : (s.releaseRsa).aux = s.aux := rfl
@[simp] theorem State.releaseRsa_ok : (s.releaseRsa).ok = s.ok := rfl
@[simp] theorem State.releaseRsa_err : (s.releaseRsa).err = s.err := rfl
@[simp] theorem State.releaseRsa_rsast : (s.releaseRsa).rsast = .uninit := rfl
@[simp] theorem State.releaseRsa_rsaN : (s.releaseRsa).rsaN = 0 := rfl
@[simp] theorem State.releaseRsa_rsaE : (s.releaseRsa).rsaE = 0 := rfl
@[simp] theorem State.releaseRsa_rsaD : (s.releaseRsa).rsaD = 0 := rfl
@[simp] theorem State.releaseRsa_rsaP : (s.releaseRsa).rsaP = 0 := rfl
@[simp] theorem State.releaseRsa_rsaQ : (s.releaseRsa).rsaQ = 0 := rfl
@[simp] theorem State.releaseRsa_rsaDP : (s.releaseRsa).rsaDP = 0 := rfl
@[simp] theorem State.releaseRsa_rsaDQ : (s.releaseRsa).rsaDQ = 0 := rfl
@[simp] theorem State.releaseRsa_rsaQP : (s.releaseRsa).rsaQP = 0 := rfl
@[simp] theorem State.releaseRsa_hasPriv : (s.releaseRsa).hasPriv = false := rfl
@[simp] theorem State.releaseRsa_hasCrt : (s.releaseRsa).hasCrt = false := rfl
@[simp] theorem State.releaseRsa_mem : (s.releaseRsa).mem = s.mem := rfl
@[simp] theorem State.releaseRsa_backed : (s.releaseRsa).backed = s.backed := rfl
@[simp] theorem State.releaseRsa_queue : (s.releaseRsa).queue = s.queue := rfl
@[simp] theorem State.releaseRsa_reply : (s.releaseRsa).reply = s.reply := rfl

@[simp] theorem State.setRsaStatus_key (r : RsaState) (priv crt : Bool) : (s.setRsaStatus r priv crt).key = s.key := rfl
@[simp] theorem State.setRsaStatus_mode (r : RsaState) (priv crt : Bool) : (s.setRsaStatus r priv crt).mode = s.mode := rfl
@[simp] theorem State.setRsaStatus_ctr (r : RsaState) (priv crt : Bool) : (s.setRsaStatus r priv crt).ctr = s.ctr := rfl
@[simp] theorem State.setRsaStatus_iv (r : RsaState) (priv crt : Bool) : (s.setRsaStatus r priv crt).iv = s.iv := rfl
@[simp] theorem State.setRsaStatus_keyin (r : RsaState) (priv crt : Bool) : (s.setRsaStatus r priv crt).keyin = s.keyin := rfl
@[simp] theorem State.setRsaStatus_vecin (r : RsaState) (priv crt : Bool) : (s.setRsaStatus r priv crt).vecin = s.vecin := rfl
@[simp] theorem State.setRsaStatus_src (r : RsaState) (priv crt : Bool) : (s.setRsaStatus r priv crt).src = s.src := rfl
@[simp] theorem State.setRsaStatus_dst (r : RsaState) (priv crt : Bool) : (s.setRsaStatus r priv crt).dst = s.dst := rfl
@[simp] theorem State.setRsaStatus_len (r : RsaState) (priv crt : Bool) : (s.setRsaStatus r priv crt).len = s.len := rfl
@[simp] theorem State.setRsaStatus_keyptr (r : RsaState) (priv crt : Bool) : (s.setRsaStatus r priv crt).keyptr = s.keyptr := rfl
@[simp] theorem State.setRsaStatus_aux (r : RsaState) (priv crt : Bool) : (s.setRsaStatus r priv crt).aux = s.aux := rfl
@[simp] theorem State.setRsaStatus_ok (r : RsaState) (priv crt : Bool) : (s.setRsaStatus r priv crt).ok = s.ok := rfl
@[simp] theorem State.setRsaStatus_err (r : RsaState) (priv crt : Bool) : (s.setRsaStatus r priv crt).err = s.err := rfl
@[simp] theorem State.setRsaStatus_rsast (r : RsaState) (priv crt : Bool) : (s.setRsaStatus r priv crt).rsast = r := rfl
@[simp] theorem State.setRsaStatus_rsaN (r : RsaState) (priv crt : Bool) : (s.setRsaStatus r priv crt).rsaN = s.rsaN := rfl
@[simp] theorem State.setRsaStatus_rsaE (r : RsaState) (priv crt : Bool) : (s.setRsaStatus r priv crt).rsaE = s.rsaE := rfl
@[simp] theorem State.setRsaStatus_rsaD (r : RsaState) (priv crt : Bool) : (s.setRsaStatus r priv crt).rsaD = s.rsaD := rfl
@[simp] theorem State.setRsaStatus_rsaP (r : RsaState) (priv crt : Bool) : (s.setRsaStatus r priv crt).rsaP = s.rsaP := rfl
@[simp] theorem State.setRsaStatus_rsaQ (r : RsaState) (priv crt : Bool) : (s.setRsaStatus r priv crt).rsaQ = s.rsaQ := rfl
@[simp] theorem State.setRsaStatus_rsaDP (r : RsaState) (priv crt : Bool) : (s.setRsaStatus r priv crt).rsaDP = s.rsaDP := rfl
@[simp] theorem State.setRsaStatus_rsaDQ (r : RsaState) (priv crt : Bool) : (s.setRsaStatus r priv crt).rsaDQ = s.rsaDQ := rfl
@[simp] theorem State.setRsaStatus_rsaQP (r : RsaState) (priv crt : Bool) : (s.setRsaStatus r priv crt).rsaQP = s.rsaQP := rfl
@[simp] theorem State.setRsaStatus_hasPriv (r : RsaState) (priv crt : Bool) : (s.setRsaStatus r priv crt).hasPriv = priv := rfl
@[simp] theorem State.setRsaStatus_hasCrt (r : RsaState) (priv crt : Bool) : (s.setRsaStatus r priv crt).hasCrt = crt := rfl
@[simp] theorem State.setRsaStatus_mem (r : RsaState) (priv crt : Bool) : (s.setRsaStatus r priv crt).mem = s.mem := rfl
@[simp] theorem State.setRsaStatus_backed (r : RsaState) (priv crt : Bool) : (s.setRsaStatus r priv crt).backed = s.backed := rfl
@[simp] theorem State.setRsaStatus_queue (r : RsaState) (priv crt : Bool) : (s.setRsaStatus r priv crt).queue = s.queue := rfl
@[simp] theorem State.setRsaStatus_reply (r : RsaState) (priv crt : Bool) : (s.setRsaStatus r priv crt).reply = s.reply := rfl

@[simp] theorem State.setCrt_key (dp dq qp : Nat) : (s.setCrt dp dq qp).key = s.key := rfl
@[simp] theorem State.setCrt_mode (dp dq qp : Nat) : (s.setCrt dp dq qp).mode = s.mode := rfl
@[simp] theorem State.setCrt_ctr (dp dq qp : Nat) : (s.setCrt dp dq qp).ctr = s.ctr := rfl
@[simp] theorem State.setCrt_iv (dp dq qp : Nat) : (s.setCrt dp dq qp).iv = s.iv := rfl
@[simp] theorem State.setCrt_keyin (dp dq qp : Nat) : (s.setCrt dp dq qp).keyin = s.keyin := rfl
@[simp] theorem State.setCrt_vecin (dp dq qp : Nat) : (s.setCrt dp dq qp).vecin = s.vecin := rfl
@[simp] theorem State.setCrt_src (dp dq qp : Nat) : (s.setCrt dp dq qp).src = s.src := rfl
@[simp] theorem State.setCrt_dst (dp dq qp : Nat) : (s.setCrt dp dq qp).dst = s.dst := rfl
@[simp] theorem State.setCrt_len (dp dq qp : Nat) : (s.setCrt dp dq qp).len = s.len := rfl
@[simp] theorem State.setCrt_keyptr (dp dq qp : Nat) : (s.setCrt dp dq qp).keyptr = s.keyptr := rfl
@[simp] theorem State.setCrt_aux (dp dq qp : Nat) : (s.setCrt dp dq qp).aux = s.aux := rfl
@[simp] theorem State.setCrt_ok (dp dq qp : Nat) : (s.setCrt dp dq qp).ok = s.ok := rfl
@[simp] theorem State.setCrt_err (dp dq qp : Nat) : (s.setCrt dp dq qp).err = s.err := rfl
@[simp] theorem State.setCrt_rsast (dp dq qp : Nat) : (s.setCrt dp dq qp).rsast = s.rsast := rfl
@[simp] theorem State.setCrt_rsaN (dp dq qp : Nat) : (s.setCrt dp dq qp).rsaN = s.rsaN := rfl
@[simp] theorem State.setCrt_rsaE (dp dq qp : Nat) : (s.setCrt dp dq qp).rsaE = s.rsaE := rfl
@[simp] theorem State.setCrt_rsaD (dp dq qp : Nat) : (s.setCrt dp dq qp).rsaD = s.rsaD := rfl
@[simp] theorem State.setCrt_rsaP (dp dq qp : Nat) : (s.setCrt dp dq qp).rsaP = s.rsaP := rfl
@[simp] theorem State.setCrt_rsaQ (dp dq qp : Nat) : (s.setCrt dp dq qp).rsaQ = s.rsaQ := rfl
@[simp] theorem State.setCrt_rsaDP (dp dq qp : Nat) : (s.setCrt dp dq qp).rsaDP = BitVec.ofNat 1024 dp := rfl
@[simp] theorem State.setCrt_rsaDQ (dp dq qp : Nat) : (s.setCrt dp dq qp).rsaDQ = BitVec.ofNat 1024 dq := rfl
@[simp] theorem State.setCrt_rsaQP (dp dq qp : Nat) : (s.setCrt dp dq qp).rsaQP = BitVec.ofNat 1024 qp := rfl
@[simp] theorem State.setCrt_hasPriv (dp dq qp : Nat) : (s.setCrt dp dq qp).hasPriv = s.hasPriv := rfl
@[simp] theorem State.setCrt_hasCrt (dp dq qp : Nat) : (s.setCrt dp dq qp).hasCrt = true := rfl
@[simp] theorem State.setCrt_mem (dp dq qp : Nat) : (s.setCrt dp dq qp).mem = s.mem := rfl
@[simp] theorem State.setCrt_backed (dp dq qp : Nat) : (s.setCrt dp dq qp).backed = s.backed := rfl
@[simp] theorem State.setCrt_queue (dp dq qp : Nat) : (s.setCrt dp dq qp).queue = s.queue := rfl
@[simp] theorem State.setCrt_reply (dp dq qp : Nat) : (s.setCrt dp dq qp).reply = s.reply := rfl

@[simp] theorem State.loadFields_key (r : KeyRecord) : (s.loadFields r).key = s.key := rfl
@[simp] theorem State.loadFields_mode (r : KeyRecord) : (s.loadFields r).mode = s.mode := rfl
@[simp] theorem State.loadFields_ctr (r : KeyRecord) : (s.loadFields r).ctr = s.ctr := rfl
@[simp] theorem State.loadFields_iv (r : KeyRecord) : (s.loadFields r).iv = s.iv := rfl
@[simp] theorem State.loadFields_keyin (r : KeyRecord) : (s.loadFields r).keyin = s.keyin := rfl
@[simp] theorem State.loadFields_vecin (r : KeyRecord) : (s.loadFields r).vecin = s.vecin := rfl
@[simp] theorem State.loadFields_src (r : KeyRecord) : (s.loadFields r).src = s.src := rfl
@[simp] theorem State.loadFields_dst (r : KeyRecord) : (s.loadFields r).dst = s.dst := rfl
@[simp] theorem State.loadFields_len (r : KeyRecord) : (s.loadFields r).len = s.len := rfl
@[simp] theorem State.loadFields_keyptr (r : KeyRecord) : (s.loadFields r).keyptr = s.keyptr := rfl
@[simp] theorem State.loadFields_aux (r : KeyRecord) : (s.loadFields r).aux = s.aux := rfl
@[simp] theorem State.loadFields_ok (r : KeyRecord) : (s.loadFields r).ok = s.ok := rfl
@[simp] theorem State.loadFields_err (r : KeyRecord) : (s.loadFields r).err = s.err := rfl
@[simp] theorem State.loadFields_rsast (r : KeyRecord) : (s.loadFields r).rsast = s.rsast := rfl
@[simp] theorem State.loadFields_rsaN (r : KeyRecord) : (s.loadFields r).rsaN = BitVec.ofNat 2048 r.n := rfl
@[simp] theorem State.loadFields_rsaE (r : KeyRecord) : (s.loadFields r).rsaE = BitVec.ofNat 64 r.e := rfl
@[simp] theorem State.loadFields_rsaD (r : KeyRecord) : (s.loadFields r).rsaD = BitVec.ofNat 2048 r.d := rfl
@[simp] theorem State.loadFields_rsaP (r : KeyRecord) : (s.loadFields r).rsaP = BitVec.ofNat 1024 r.p := rfl
@[simp] theorem State.loadFields_rsaQ (r : KeyRecord) : (s.loadFields r).rsaQ = BitVec.ofNat 1024 r.q := rfl
@[simp] theorem State.loadFields_rsaDP (r : KeyRecord) : (s.loadFields r).rsaDP = BitVec.ofNat 1024 r.dp := rfl
@[simp] theorem State.loadFields_rsaDQ (r : KeyRecord) : (s.loadFields r).rsaDQ = BitVec.ofNat 1024 r.dq := rfl
@[simp] theorem State.loadFields_rsaQP (r : KeyRecord) : (s.loadFields r).rsaQP = BitVec.ofNat 1024 r.qp := rfl
@[simp] theorem State.loadFields_hasPriv (r : KeyRecord) : (s.loadFields r).hasPriv = s.hasPriv := rfl
@[simp] theorem State.loadFields_hasCrt (r : KeyRecord) : (s.loadFields r).hasCrt = s.hasCrt := rfl
@[simp] theorem State.loadFields_mem (r : KeyRecord) : (s.loadFields r).mem = s.mem := rfl
@[simp] theorem State.loadFields_backed (r : KeyRecord) : (s.loadFields r).backed = s.backed := rfl
@[simp] theorem State.loadFields_queue (r : KeyRecord) : (s.loadFields r).queue = s.queue := rfl
@[simp] theorem State.loadFields_reply (r : KeyRecord) : (s.loadFields r).reply = s.reply := rfl

@[simp] theorem State.setReply_key (r : Reply) : (s.setReply r).key = s.key := rfl
@[simp] theorem State.setReply_mode (r : Reply) : (s.setReply r).mode = s.mode := rfl
@[simp] theorem State.setReply_ctr (r : Reply) : (s.setReply r).ctr = s.ctr := rfl
@[simp] theorem State.setReply_iv (r : Reply) : (s.setReply r).iv = s.iv := rfl
@[simp] theorem State.setReply_keyin (r : Reply) : (s.setReply r).keyin = s.keyin := rfl
@[simp] theorem State.setReply_vecin (r : Reply) : (s.setReply r).vecin = s.vecin := rfl
@[simp] theorem State.setReply_src (r : Reply) : (s.setReply r).src = s.src := rfl
@[simp] theorem State.setReply_dst (r : Reply) : (s.setReply r).dst = s.dst := rfl
@[simp] theorem State.setReply_len (r : Reply) : (s.setReply r).len = s.len := rfl
@[simp] theorem State.setReply_keyptr (r : Reply) : (s.setReply r).keyptr = s.keyptr := rfl
@[simp] theorem State.setReply_aux (r : Reply) : (s.setReply r).aux = s.aux := rfl
@[simp] theorem State.setReply_ok (r : Reply) : (s.setReply r).ok = s.ok := rfl
@[simp] theorem State.setReply_err (r : Reply) : (s.setReply r).err = s.err := rfl
@[simp] theorem State.setReply_rsast (r : Reply) : (s.setReply r).rsast = s.rsast := rfl
@[simp] theorem State.setReply_rsaN (r : Reply) : (s.setReply r).rsaN = s.rsaN := rfl
@[simp] theorem State.setReply_rsaE (r : Reply) : (s.setReply r).rsaE = s.rsaE := rfl
@[simp] theorem State.setReply_rsaD (r : Reply) : (s.setReply r).rsaD = s.rsaD := rfl
@[simp] theorem State.setReply_rsaP (r : Reply) : (s.setReply r).rsaP = s.rsaP := rfl
@[simp] theorem State.setReply_rsaQ (r : Reply) : (s.setReply r).rsaQ = s.rsaQ := rfl
@[simp] theorem State.setReply_rsaDP (r : Reply) : (s.setReply r).rsaDP = s.rsaDP := rfl
@[simp] theorem State.setReply_rsaDQ (r : Reply) : (s.setReply r).rsaDQ = s.rsaDQ := rfl
@[simp] theorem State.setReply_rsaQP (r : Reply) : (s.setReply r).rsaQP = s.rsaQP := rfl
@[simp] theorem State.setReply_hasPriv (r : Reply) : (s.setReply r).hasPriv = s.hasPriv := rfl
@[simp] theorem State.setReply_hasCrt (r : Reply) : (s.setReply r).hasCrt = s.hasCrt := rfl
@[simp] theorem State.setReply_mem (r : Reply) : (s.setReply r).mem = s.mem := rfl
@[simp] theorem State.setReply_backed (r : Reply) : (s.setReply r).backed = s.backed := rfl
@[simp] theorem State.setReply_queue (r : Reply) : (s.setReply r).queue = s.queue := rfl
@[simp] theorem State.setReply_reply (r : Reply) : (s.setReply r).reply = r := rfl

@[simp] theorem State.setQueue_key (q : List HostAction) : (s.setQueue q).key = s.key := rfl
@[simp] theorem State.setQueue_mode (q : List HostAction) : (s.setQueue q).mode = s.mode := rfl
@[simp] theorem State.setQueue_ctr (q : List HostAction) : (s.setQueue q).ctr = s.ctr := rfl
@[simp] theorem State.setQueue_iv (q : List HostAction) : (s.setQueue q).iv = s.iv := rfl
@[simp] theorem State.setQueue_keyin (q : List HostAction) : (s.setQueue q).keyin = s.keyin := rfl
@[simp] theorem State.setQueue_vecin (q : List HostAction) : (s.setQueue q).vecin = s.vecin := rfl
@[simp] theorem State.setQueue_src (q : List HostAction) : (s.setQueue q).src = s.src := rfl
@[simp] theorem State.setQueue_dst (q : List HostAction) : (s.setQueue q).dst = s.dst := rfl
@[simp] theorem State.setQueue_len (q : List HostAction) : (s.setQueue q).len = s.len := rfl
@[simp] theorem State.setQueue_keyptr (q : List HostAction) : (s.setQueue q).keyptr = s.keyptr := rfl
@[simp] theorem State.setQueue_aux (q : List HostAction) : (s.setQueue q).aux = s.aux := rfl
@[simp] theorem State.setQueue_ok (q : List HostAction) : (s.setQueue q).ok = s.ok := rfl
@[simp] theorem State.setQueue_err (q : List HostAction) : (s.setQueue q).err = s.err := rfl
@[simp] theorem State.setQueue_rsast (q : List HostAction) : (s.setQueue q).rsast = s.rsast := rfl
@[simp] theorem State.setQueue_rsaN (q : List HostAction) : (s.setQueue q).rsaN = s.rsaN := rfl
@[simp] theorem State.setQueue_rsaE (q : List HostAction) : (s.setQueue q).rsaE = s.rsaE := rfl
@[simp] theorem State.setQueue_rsaD (q : List HostAction) : (s.setQueue q).rsaD = s.rsaD := rfl
@[simp] theorem State.setQueue_rsaP (q : List HostAction) : (s.setQueue q).rsaP = s.rsaP := rfl
@[simp] theorem State.setQueue_rsaQ (q : List HostAction) : (s.setQueue q).rsaQ = s.rsaQ := rfl
@[simp] theorem State.setQueue_rsaDP (q : List HostAction) : (s.setQueue q).rsaDP = s.rsaDP := rfl
@[simp] theorem State.setQueue_rsaDQ (q : List HostAction) : (s.setQueue q).rsaDQ = s.rsaDQ := rfl
@[simp] theorem State.setQueue_rsaQP (q : List HostAction) : (s.setQueue q).rsaQP = s.rsaQP := rfl
@[simp] theorem State.setQueue_hasPriv (q : List HostAction) : (s.setQueue q).hasPriv = s.hasPriv := rfl
@[simp] theorem State.setQueue_hasCrt (q : List HostAction) : (s.setQueue q).hasCrt = s.hasCrt := rfl
@[simp] theorem State.setQueue_mem (q : List HostAction) : (s.setQueue q).mem = s.mem := rfl
@[simp] theorem State.setQueue_backed (q : List HostAction) : (s.setQueue q).backed = s.backed := rfl
@[simp] theorem State.setQueue_queue (q : List HostAction) : (s.setQueue q).queue = q := rfl
@[simp] theorem State.setQueue_reply (q : List HostAction) : (s.setQueue q).reply = s.reply := rfl

@[simp] theorem State.endWith_none : s.endWith none = s.finish := rfl
@[simp] theorem State.endWith_some (k : ErrorKind) : s.endWith (some k) = s.raise k := rfl
@[simp] theorem State.resetRegisters_mem : s.resetRegisters.mem = s.mem := rfl
@[simp] theorem State.resetRegisters_backed : s.resetRegisters.backed = s.backed := rfl
@[simp] theorem State.resetRegisters_queue : s.resetRegisters.queue = s.queue := rfl
@[simp] theorem State.resetRegisters_reply : s.resetRegisters.reply = s.reply := rfl

end Sys2Proof.Machine
end

