-- ==== Sys2Proof/Laws/Command.lean ====
section
/-! SUPPORT. What a command can do (60_exceptions.md R262 to R264), and what each operand check says
(46_context.md R255). -/

namespace Sys2Proof.Machine

/-! ### Checks -/

@[simp] theorem firstError_nil : firstError [] = none := rfl

@[simp] theorem firstError_cons_none (cs : List (Option ErrorKind)) :
    firstError (none :: cs) = firstError cs := rfl

@[simp] theorem firstError_cons_some (k : ErrorKind) (cs : List (Option ErrorKind)) :
    firstError (some k :: cs) = some k := rfl

/-- No error exactly when every check passes. -/
theorem firstError_eq_none_iff (cs : List (Option ErrorKind)) :
    firstError cs = none ↔ ∀ c ∈ cs, c = none := by
  induction cs with
  | nil => simp
  | cons c cs ih => cases c <;> simp [ih]

theorem initCheck_eq_none_iff (s : State) : initCheck s = none ↔ s.mode = .none := by
  simp [initCheck]

theorem useCheck_eq_none_iff {m : Mode} (hm : m ≠ .none) (s : State) :
    useCheck m s = none ↔ s.mode = m := by
  unfold useCheck
  constructor
  · intro h; split at h <;> simp_all
  · rintro rfl; simp [hm]

theorem rsaFreeCheck_eq_none_iff (s : State) : rsaFreeCheck s = none ↔ s.rsast = .uninit := by
  simp [rsaFreeCheck]

theorem deriveCheck_eq_none_iff (s : State) :
    deriveCheck s = none ↔ s.rsast = .valid ∧ s.hasPriv = true := by
  unfold deriveCheck
  cases s.rsast <;> simp

theorem sizeCheck_eq_none_iff (s : State) : sizeCheck s = none ↔ s.len.toNat % 16 = 0 := by
  simp [sizeCheck]

theorem rangeCheck_eq_none_iff (s : State) (rs : List (Nat × Nat)) :
    rangeCheck s rs = none ↔ ∀ r ∈ rs, rangeOK s.backed r.1 r.2 = true := by
  simp [rangeCheck]

/-- The range check has one error kind (R263). -/
theorem rangeCheck_cases (s : State) (rs : List (Nat × Nat)) :
    rangeCheck s rs = none ∨ rangeCheck s rs = some .accessFault := by
  unfold rangeCheck; split <;> simp

theorem sizeCheck_cases (s : State) :
    sizeCheck s = none ∨ sizeCheck s = some .invalidInputSize := by
  unfold sizeCheck; split <;> simp

/-! ### Commands -/

/-- A command whose checks pass does its body, and ends as R262 says. -/
theorem State.command_of_checks {s : State} {cs : List (Option ErrorKind)}
    {body : State → State × Option ErrorKind} (h : firstError cs = none) :
    s.command cs body = .next ((body s).1.endWith (body s).2) := by
  simp [State.command, h]

/-- A command whose checks fail changes nothing but STATUS.OK and ERR (R263). -/
theorem State.command_of_error {s : State} {cs : List (Option ErrorKind)}
    {body : State → State × Option ErrorKind} {k : ErrorKind} (h : firstError cs = some k) :
    s.command cs body = .next (s.raise k) := by
  simp [State.command, h]

/-- All a command can do: the error of its first failing check and no other effect, or its body. -/
theorem State.command_cases {s t : State} {cs : List (Option ErrorKind)}
    {body : State → State × Option ErrorKind} (h : s.command cs body = .next t) :
    (∃ k, firstError cs = some k ∧ t = s.raise k) ∨
      (firstError cs = none ∧ t = (body s).1.endWith (body s).2) := by
  unfold State.command at h
  split at h
  · rename_i k hk; cases h; exact .inl ⟨k, hk, rfl⟩
  · rename_i hk; cases h; exact .inr ⟨hk, rfl⟩

theorem State.command_next (s : State) (cs : List (Option ErrorKind))
    (body : State → State × Option ErrorKind) : ∃ t, s.command cs body = .next t := by
  unfold State.command; split <;> exact ⟨_, rfl⟩

end Sys2Proof.Machine
end

