-- ==== Sys2Proof/Laws/Walk.lean ====
section
/-! SUPPORT. What the walk over blocks does (20_memory.md R57): one more block is one more read,
computation and write, in that order; every other byte of memory stays. -/

namespace Sys2Proof.Machine

variable {σ α : Type} (fetch : Memory → Nat → α) (f : σ → α → Block × σ) (dst : Nat)

@[simp] theorem walkBlocks_zero (i : Nat) (m : Memory) (x : σ) :
    walkBlocks fetch f dst 0 i m x = (m, x) := rfl

/-- A walk of `j + n` blocks is a walk of `j` blocks and then one of `n` blocks. -/
theorem walkBlocks_add (j n i : Nat) (m : Memory) (x : σ) :
    walkBlocks fetch f dst (j + n) i m x =
      walkBlocks fetch f dst n (i + j) (walkBlocks fetch f dst j i m x).1
        (walkBlocks fetch f dst j i m x).2 := by
  induction j generalizing i m x with
  | zero => simp
  | succ j ih =>
    rw [Nat.add_right_comm, walkBlocks, walkBlocks, ih, Nat.add_right_comm i 1 j, Nat.add_assoc i j 1]

/-- The last block of a walk: its input is read from the memory the blocks before it left. -/
theorem walkBlocks_succ (n i : Nat) (m : Memory) (x : σ) :
    walkBlocks fetch f dst (n + 1) i m x =
      let w := walkBlocks fetch f dst n i m x
      let r := f w.2 (fetch w.1 (i + n))
      (w.1.writeBlock (dst + 16 * (i + n)) r.1, r.2) := by
  rw [walkBlocks_add]; rfl

/-- Outside its output blocks a walk leaves every byte as it was. -/
theorem walkBlocks_frame (n i : Nat) (m : Memory) (x : σ) :
    sameOutside (dst + 16 * i) (16 * n) m (walkBlocks fetch f dst n i m x).1 := by
  induction n with
  | zero => exact fun b _ => rfl
  | succ n ih =>
    intro b hb
    rw [walkBlocks_succ]
    simp only [Memory.read_writeBlock]
    rw [if_neg (by omega)]
    exact ih b (by omega)

theorem walkBlocks_wf {m : Memory} (h : m.wf = true) (n i : Nat) (x : σ) :
    (walkBlocks fetch f dst n i m x).1.wf = true := by
  induction n with
  | zero => exact h
  | succ n ih => rw [walkBlocks_succ]; exact Memory.wf_writeBlock ih _ _

theorem walkBlocks_within {backed : List Region} {m : Memory} (h : m.within backed = true)
    (n i : Nat) (x : σ) (hr : rangeOK backed dst (16 * (i + n)) = true) :
    (walkBlocks fetch f dst n i m x).1.within backed = true := by
  induction n with
  | zero => exact h
  | succ n ih =>
    rw [walkBlocks_succ]
    have h16 : rangeOK backed (dst + 16 * (i + n)) 16 = true := rangeOK_sub hr (by omega)
    have h0 : rangeOK backed (dst + 0) (16 * (i + n)) = true := rangeOK_sub hr (by omega)
    exact Memory.within_writeBytes (ih h0) (by rw [Block.length_bytes]; exact h16)

end Sys2Proof.Machine
end

