-- ==== Sys2Proof/Laws/Exec.lean ====
section
/-! SUPPORT. Every command reaches a next state (60_exceptions.md R265, R268); what reading a register
of the window, performing a host action and the shared bodies of the block commands do. -/

namespace Sys2Proof.Machine

/-- No command faults and none is refused. -/
theorem exec_next (i : Instr) (s : State) : ∃ t, exec i s = .next t := by
  cases i <;>
    simp only [exec, execEcbInitEnc, execEcbInitDec, execEcbEnc, execEcbDec, execSha256, execCtrInit,
      execCtrSet, execCtrAdd, execCtrBlock, execCtrStream, execCbcInitEnc, execCbcInitDec, execCbcEnc,
      execCbcDec, execRsaInit, execRsaVerify, execRsaRaw, execRsaDerive, execAesRelease,
      execRsaRelease] <;>
    apply State.command_next

@[simp] theorem hostStep_nil {s : State} (h : s.queue = []) : hostStep s = .next s := by
  simp [hostStep, h]

theorem hostStep_cons {s : State} {a : HostAction} {rest : List HostAction}
    (h : s.queue = a :: rest) : hostStep s = perform a (s.setQueue rest) := by
  simp [hostStep, h]

/-- A command word written to CMD never stops the machine. -/
theorem runCommand_next (w : Word) (s : State) : ∃ t, runCommand w s = .next t := by
  unfold runCommand
  split
  · exact exec_next _ _
  · exact ⟨_, rfl⟩

theorem regWrite_next (width offset : Nat) (v : Word) (s : State) :
    ∃ t, regWrite width offset v s = .next t := by
  unfold regWrite
  split
  · exact ⟨_, rfl⟩
  · exact runCommand_next _ _
  · exact ⟨_, rfl⟩

/-- What LoadKey can do (45_rsa.md R213): fail to parse and leave the state; load and find the key
invalid; load a valid key. -/
theorem State.loadKey_cases (s : State) (a : Nat) :
    (parseKeyRecord (s.mem.readBytes a Config.keyRecordLen) = none ∧
        s.loadKey a = (s, some .uninitializedKey)) ∨
      ∃ r, parseKeyRecord (s.mem.readBytes a Config.keyRecordLen) = some r ∧
        ((publicCheck r.n r.e = false ∨ privateCheck r = none) ∧
            s.loadKey a =
              ((s.loadFields r).setRsaStatus .invalid false false, some .keyValidationFailed) ∨
          ∃ priv crt, publicCheck r.n r.e = true ∧ privateCheck r = some (priv, crt) ∧
            s.loadKey a = ((s.loadFields r).setRsaStatus .valid priv crt, none)) := by
  unfold State.loadKey
  cases hp : parseKeyRecord (s.mem.readBytes a Config.keyRecordLen) with
  | none => exact .inl ⟨rfl, rfl⟩
  | some r =>
    refine .inr ⟨r, rfl, ?_⟩
    simp only [State.acceptKey]
    cases hpub : publicCheck r.n r.e with
    | false => exact .inl ⟨.inl rfl, by simp⟩
    | true =>
      cases hpriv : privateCheck r with
      | none => exact .inl ⟨.inr rfl, by simp⟩
      | some pc => exact .inr ⟨pc.1, pc.2, rfl, rfl, by simp⟩

/-- The ECB body changes buffer memory only. -/
@[simp] theorem ecbBody_eq (c : Block → Block) (s : State) :
    ecbBody c s = s.setMem (ecbBody c s).mem := rfl

/-- The CBC body changes buffer memory and IV only. -/
theorem cbcBody_eq (f : Block → Block → Block × Block) (s : State) :
    cbcBody f s = (s.setMem (cbcBody f s).mem).setIv (cbcBody f s).iv := rfl

/-- The CTR_STREAM body changes buffer memory and CTR only. -/
theorem ctrStreamBody_eq (ks : Bool) (s : State) :
    ctrStreamBody ks s = (s.setMem (ctrStreamBody ks s).mem).setCtr (ctrStreamBody ks s).ctr := by
  unfold ctrStreamBody
  simp only
  split
  · rfl
  · rfl

end Sys2Proof.Machine
end

