-- ==== Sys2Proof/Laws/PerInstr.lean ====
section
/-! SUPPORT. Facts about every command as syntax, one lemma per constructor. -/

namespace Sys2Proof.Laws

/-- R70: the reserved fields RSV3 (31:24) and RSV1 (15:9) of the word of a well-formed command are
zero. -/
def ReservedZero.Statement (i : Instr) : Prop :=
  i.wellFormed = true → fieldRsv3 (encode i) = 0 ∧ fieldRsv1 (encode i) = 0

namespace ReservedZero

theorem ecbInitEnc : Statement .ecbInitEnc := fun _ => by decide
theorem ecbInitDec : Statement .ecbInitDec := fun _ => by decide
theorem ecbEnc : Statement .ecbEnc := fun _ => by decide
theorem ecbDec : Statement .ecbDec := fun _ => by decide
theorem sha256 : Statement .sha256 := fun _ => by decide
theorem ctrInit : Statement .ctrInit := fun _ => by decide
theorem ctrSet : Statement .ctrSet := fun _ => by decide
theorem ctrAdd (imm : Nat) : Statement (.ctrAdd imm) := fun h => by
  have h : imm < 256 := by simpa [Instr.wellFormed] using h
  simp only [fieldRsv3, fieldRsv1, encode, opcodeOf, ksOf, imm8Of, BitVec.toNat_ofNat]
  constructor <;> simp <;> omega
theorem ctrBlock (ks : Bool) : Statement (.ctrBlock ks) := fun _ => by cases ks <;> decide
theorem ctrStream (ks : Bool) : Statement (.ctrStream ks) := fun _ => by cases ks <;> decide
theorem cbcInitEnc : Statement .cbcInitEnc := fun _ => by decide
theorem cbcInitDec : Statement .cbcInitDec := fun _ => by decide
theorem cbcEnc : Statement .cbcEnc := fun _ => by decide
theorem cbcDec : Statement .cbcDec := fun _ => by decide
theorem rsaInit : Statement .rsaInit := fun _ => by decide
theorem rsaVerify : Statement .rsaVerify := fun _ => by decide
theorem rsaRaw : Statement .rsaRaw := fun _ => by decide
theorem rsaDerive : Statement .rsaDerive := fun _ => by decide
theorem aesRelease : Statement .aesRelease := fun _ => by decide
theorem rsaRelease : Statement .rsaRelease := fun _ => by decide

end ReservedZero

end Sys2Proof.Laws
end

