-- ==== Sys2Proof/Tests/Slice0.lean ====
section
/-! SUPPORT. The model's own tests, by evaluation in the kernel: the well-formedness check refuses an
ill-formed term; every command's word, written out bit by bit from 30_encoding.md R70 and R71; one step
of every command on a small state, against 95_test_vectors.md or a calculation by hand; and, for every
statement of Certificates/Slice0/Obligations.lean that has hypotheses, a `witness_` theorem with a
state and operands that meet them together, clause by clause and at the ends of the ranges. -/

namespace Sys2Proof.Machine.Tests

-- one theorem after another: the kernel evaluations, each on a thread of its own, outgrow the memory limit
set_option Elab.async false

/-! ### Well-formedness and encoding -/

/-- The one check of `Instr.wellFormed`: IMM8 is a byte (R72). 256 is ill-formed, 255 is not. -/
theorem test_wellFormed_refuses : (Instr.ctrAdd 256).wellFormed = false := by decide

theorem test_wellFormed_accepts : (Instr.ctrAdd 255).wellFormed = true := by decide

/-- The word decodes to the command, the command encodes to the word, and the host's table reads it. -/
def reads (w : Word) (i : Instr) : Bool :=
  decide (decode w = .ok i) && decide (encode i = w) &&
    decide (decodeTableWord 32 w.toNat = some i) && i.wellFormed

theorem test_decode_ecbInitEnc : reads 0b00000000000000000000000000010000 .ecbInitEnc = true := by decide
theorem test_decode_ecbInitDec : reads 0b00000000000000000000000000010001 .ecbInitDec = true := by decide
theorem test_decode_ecbEnc : reads 0b00000000000000000000000000010010 .ecbEnc = true := by decide
theorem test_decode_ecbDec : reads 0b00000000000000000000000000010011 .ecbDec = true := by decide
theorem test_decode_sha256 : reads 0b00000000000000000000000000100000 .sha256 = true := by decide
theorem test_decode_ctrInit : reads 0b00000000000000000000000000110000 .ctrInit = true := by decide
theorem test_decode_ctrSet : reads 0b00000000000000000000000000110001 .ctrSet = true := by decide
theorem test_decode_ctrAdd : reads 0b00000000000001010000000000110010 (.ctrAdd 5) = true := by decide
theorem test_decode_ctrBlock : reads 0b00000000000000000000000100110011 (.ctrBlock true) = true := by decide
theorem test_decode_ctrStream : reads 0b00000000000000000000000100110100 (.ctrStream true) = true := by decide
theorem test_decode_cbcInitEnc : reads 0b00000000000000000000000001000000 .cbcInitEnc = true := by decide
theorem test_decode_cbcInitDec : reads 0b00000000000000000000000001000001 .cbcInitDec = true := by decide
theorem test_decode_cbcEnc : reads 0b00000000000000000000000001000010 .cbcEnc = true := by decide
theorem test_decode_cbcDec : reads 0b00000000000000000000000001000011 .cbcDec = true := by decide
theorem test_decode_rsaInit : reads 0b00000000000000000000000001010000 .rsaInit = true := by decide
theorem test_decode_rsaVerify : reads 0b00000000000000000000000001010001 .rsaVerify = true := by decide
theorem test_decode_rsaRaw : reads 0b00000000000000000000000001010010 .rsaRaw = true := by decide
theorem test_decode_rsaDerive : reads 0b00000000000000000000000001010011 .rsaDerive = true := by decide
theorem test_decode_aesRelease : reads 0b00000000000000000000000001100000 .aesRelease = true := by decide
theorem test_decode_rsaRelease : reads 0b00000000000000000000000001100001 .rsaRelease = true := by decide

/-- V7.2: illegal words, each with the field that makes it so. -/
theorem test_decode_illegal :
    decode 0x00000000 = .error .opcode ∧ decode 0x00000014 = .error .opcode ∧
    decode 0x000000FF = .error .opcode ∧ decode 0x00000112 = .error .ks ∧
    decode 0x00000132 = .error .ks ∧ decode 0x00010033 = .error .imm8 ∧
    decode 0x00FF0060 = .error .imm8 ∧ decode 0x01000032 = .error .reserved ∧
    decode 0x80000060 = .error .reserved ∧ decode 0x00000233 = .error .reserved ∧
    decode 0x00008034 = .error .reserved ∧ decode 0xFFFFFFFF = .error .opcode := by
  decide

/-! ### One step of every command -/

/-- The state after the host writes the command word `w`, or `s` where the machine stops. -/
def afterWord (s : State) (w : Nat) : State :=
  match step (s.withFetchWord 32 w) with
  | .next t => t
  | .fault _ => s
  | .refused _ => s

/-- STATUS and ERR after the command word `w`, as the host reads them. -/
def resultOf (s : State) (w : Nat) : Nat × Nat :=
  ((afterWord s w).statusWord.toNat, (afterWord s w).errWord.toNat)

/-- The state after reset, then: MODE `m`, the key, the counter or chaining value, and the pointers. -/
def engine (m : Mode) (key vec src dst len : Nat) : State :=
  { State.reset with
    mode := m, key := Block.ofNat key
    ctr := if m = .ctr then Block.ofNat vec else Block.zeros
    iv := if m = .cbcEnc ∨ m = .cbcDec then Block.ofNat vec else Block.zeros
    src := BitVec.ofNat 32 src, dst := BitVec.ofNat 32 dst, len := BitVec.ofNat 32 len }

/-- Bytes put into buffer memory. -/
def put (s : State) (a : Nat) (b : Bytes) : State := { s with mem := s.mem.writeBytes a b }

/-- Buffer memory as an integer: the `n` bytes at `a`, big-endian. -/
def memAt (s : State) (a n : Nat) : Nat := be (s.mem.readBytes a n)

/-- The state after reset with the staging registers set. -/
def staged (key vec : Nat) : State :=
  { State.reset with keyin := Block.ofNat key, vecin := Block.ofNat vec }

/-- V4.2. -/
theorem test_ecbInitEnc :
    resultOf (staged 0x000102030405060708090a0b0c0d0e0f 0) 0x10 = (0x11, 0) ∧
    (afterWord (staged 0x000102030405060708090a0b0c0d0e0f 0) 0x10).key =
      Block.ofNat 0x000102030405060708090a0b0c0d0e0f := by
  decide +kernel

/-- V4.2: fresh, and then not fresh. -/
theorem test_ecbInitDec :
    resultOf (staged 1 0) 0x11 = (0x21, 0) ∧ resultOf (engine .ecbEnc 1 0 0 0 0) 0x11 = (0x10, 6) := by
  decide +kernel

/-- V4.2. -/
theorem test_ecbEnc :
    let s := put (engine .ecbEnc 0x000102030405060708090a0b0c0d0e0f 0 0x4000 0x4000 16) 0x4000
      (bytesN 16 0x00112233445566778899aabbccddeeff)
    resultOf s 0x12 = (0x11, 0) ∧
      memAt (afterWord s 0x12) 0x4000 16 = 0x69c4e0d86a7b0430d8cdb78070b4c55a := by
  decide +kernel

/-- V4.3: DST = SRC + 16, the second input is the first output. -/
theorem test_ecbEnc_overlap :
    memAt (afterWord (engine .ecbEnc 0 0 0x4000 0x4010 32) 0x12) 0x4010 32 =
      0x66e94bd4ef8a2c3b884cfa59ca342b2ef795bd4a52e29ed713d313fa20e98dbc := by
  decide +kernel

/-- V4.2, and P5's order of checks: the size before the ranges. -/
theorem test_ecbDec :
    let s := put (engine .ecbDec 0x000102030405060708090a0b0c0d0e0f 0 0x4000 0x5000 16) 0x4000
      (bytesN 16 0x69c4e0d86a7b0430d8cdb78070b4c55a)
    memAt (afterWord s 0x13) 0x5000 16 = 0x00112233445566778899aabbccddeeff ∧
      resultOf (engine .ecbDec 0 0 0xFFFFFFF8 0 17) 0x13 = (0x20, 3) := by
  decide +kernel

/-- V3.1 and P3: the digest of `abc` at DST. -/
theorem test_sha256 :
    let s := put (engine .none 0 0 0x4000 0x2100 3) 0x4000 [0x61, 0x62, 0x63]
    resultOf s 0x20 = (0x01, 0) ∧ memAt (afterWord s 0x20) 0x2100 32 =
      0xba7816bf8f01cfea414140de5dae2223b00361a396177a9cb410ff61f20015ad := by
  decide +kernel

/-- V4.4. -/
theorem test_ctrInit :
    resultOf (staged 1 0xf0f1f2f3f4f5f6f7f8f9fafbfcfdfeff) 0x30 = (0x31, 0) ∧
    (afterWord (staged 1 0xf0f1f2f3f4f5f6f7f8f9fafbfcfdfeff) 0x30).ctr.toNat =
      0xf0f1f2f3f4f5f6f7f8f9fafbfcfdfeff := by
  decide +kernel

/-- V4.4: CTR takes VECIN, KEY stays. -/
theorem test_ctrSet :
    let s := { engine .ctr 7 9 0 0 0 with vecin := Block.ofNat 0xffffffffffffffffffffffffffffffff }
    (afterWord s 0x31).ctr.toNat = 0xffffffffffffffffffffffffffffffff ∧
      (afterWord s 0x31).key.toNat = 7 := by
  decide +kernel

/-- V4.1, V4.4: carries, the wrap, and use before any init. -/
theorem test_ctrAdd :
    (afterWord (engine .ctr 1 0xf0f1f2f3f4f5f6f7f8f9fafbfcfdffff 0 0 0) 0x00100032).ctr.toNat =
      0xf0f1f2f3f4f5f6f7f8f9fafbfcfe000f ∧
    (afterWord (engine .ctr 1 0xffffffffffffffffffffffffffffff01 0 0 0) 0x00FF0032).ctr.toNat = 0 ∧
    resultOf State.reset 0x00010032 = (0, 1) := by
  decide +kernel

/-- V4.5: with an input; LEN is ignored. -/
theorem test_ctrBlock :
    let s := put (engine .ctr 0 0 0x4000 0x5000 5) 0x4000 (List.replicate 16 0xff)
    memAt (afterWord s 0x33) 0x5000 16 = 0x9916b42b1075d3c477b305a635cbd4d1 ∧
      (afterWord s 0x33).ctr.toNat = 1 := by
  decide +kernel

/-- V4.5: keystream only, SRC not backed; without KS the same SRC is refused. -/
theorem test_ctrBlock_ks :
    memAt (afterWord (engine .ctr 0 1 0xFFFFFFF8 0x5000 5) 0x133) 0x5000 16 =
      0x58e2fccefa7e3061367f1d57a4e7455a ∧
    resultOf (engine .ctr 0 2 0xFFFFFFF8 0x5000 5) 0x33 = (0x30, 7) := by
  decide +kernel

/-- V1.9: 20 bytes, the next four untouched. -/
theorem test_ctrStream_tail :
    let s := put (engine .ctr 0 0 0x4000 0x5000 20) 0x4000
      (bytesN 20 0x000102030405060708090a0b0c0d0e0f10111213)
    memAt (afterWord s 0x34) 0x5000 24 = 0x66e849d7eb8f2a3c8045f052c639252148f3eedd00000000 ∧
      (afterWord s 0x34).ctr.toNat = 2 := by
  decide +kernel

/-- V4.7: the counter wraps inside a keystream-only stream. -/
theorem test_ctrStream_wrap :
    let s := engine .ctr 0 0xffffffffffffffffffffffffffffffff 0 0x5000 32
    memAt (afterWord s 0x134) 0x5000 32 =
      0x3f5b8cc9ea855a0afa7347d23e8d664e66e94bd4ef8a2c3b884cfa59ca342b2e ∧
      (afterWord s 0x134).ctr.toNat = 1 := by
  decide +kernel

/-- V4.10. -/
theorem test_cbcInitEnc :
    let s := staged 1 0x000102030405060708090a0b0c0d0e0f
    resultOf s 0x40 = (0x41, 0) ∧
      (afterWord s 0x40).iv.toNat = 0x000102030405060708090a0b0c0d0e0f := by
  decide +kernel

/-- V4.10, and P2's refused initialisation for the other direction. -/
theorem test_cbcInitDec :
    resultOf (staged 1 2) 0x41 = (0x51, 0) ∧ resultOf (engine .cbcEnc 1 2 0 0 0) 0x41 = (0x40, 6) := by
  decide +kernel

/-- V1.5, P2: two chained blocks. -/
theorem test_cbcEnc :
    let s := put (engine .cbcEnc 0x2b7e151628aed2a6abf7158809cf4f3c 0x000102030405060708090a0b0c0d0e0f
      0x4000 0x5000 32) 0x4000
      (bytesN 32 0x6bc1bee22e409f96e93d7e117393172aae2d8a571e03ac9c9eb76fac45af8e51)
    memAt (afterWord s 0x42) 0x5000 32 =
      0x7649abac8119b246cee98e9b12e9197d5086cb9b507219ee95db113a917678b2 ∧
    (afterWord s 0x42).iv.toNat = 0x5086cb9b507219ee95db113a917678b2 := by
  decide +kernel

/-- V4.11. -/
theorem test_cbcEnc_size :
    resultOf (engine .cbcEnc 1 2 0x4000 0x5000 20) 0x42 = (0x40, 3) ∧
      resultOf (engine .cbcEnc 1 2 0x4000 0x5000 0) 0x42 = (0x41, 0) := by
  decide +kernel

/-- P2, in place. -/
theorem test_cbcDec :
    let s := put (engine .cbcDec 0x2b7e151628aed2a6abf7158809cf4f3c 0x000102030405060708090a0b0c0d0e0f
      0x5000 0x5000 32) 0x5000
      (bytesN 32 0x7649abac8119b246cee98e9b12e9197d5086cb9b507219ee95db113a917678b2)
    memAt (afterWord s 0x43) 0x5000 32 =
      0x6bc1bee22e409f96e93d7e117393172aae2d8a571e03ac9c9eb76fac45af8e51 ∧
    (afterWord s 0x43).iv.toNat = 0x5086cb9b507219ee95db113a917678b2 := by
  decide +kernel

/-- A sparse public key: N = 2^2047 + 1, E = 3 (record at 0, signature block of the integer `sig` at
0x1000, hash at 0x3000 all zero, output at 0x2000). -/
def sparseKey (valid : Byte) (sig : Byte) : State :=
  put (put (put (put { engine .none 0 0 0x1000 0x2000 0 with aux := 0x3000 } 0 [valid, 1]) 0x10 [0x80])
    0x10F [1, 3]) 0x10FF [sig]

/-- R213, R214, R216: the registers loaded, RSAST = VALID. -/
theorem test_rsaInit :
    let t := afterWord (sparseKey 1 0) 0x50
    (t.statusWord, t.errWord, t.hasPriv) = (0x101, 0, false) ∧ t.rsaN.toNat = 2 ^ 2047 + 1 ∧
      t.rsaE = 3 := by
  decide +kernel

/-- R216, V6.2: VALID is not 0x01. -/
theorem test_rsaInit_invalid : resultOf (sparseKey 0 0) 0x50 = (0, 1) := by
  decide +kernel

/-- R219: 2^3 is no encoded message; the RSA sub-state is released. -/
theorem test_rsaVerify_mismatch :
    resultOf (sparseKey 1 2) 0x51 = (0, 4) ∧ (afterWord (sparseKey 1 2) 0x51).rsaN = 0 := by
  decide +kernel

/-- R220: 2^3 mod N = 8 in 256 bytes. -/
theorem test_rsaRaw :
    resultOf (sparseKey 1 2) 0x52 = (1, 0) ∧ memAt (afterWord (sparseKey 1 2) 0x52) 0x2000 256 = 8 ∧
      (afterWord (sparseKey 1 2) 0x52).rsast = .uninit := by
  decide +kernel

/-- A small key in the registers: D = 23, and P and Q as given. -/
def smallKey (p q : Nat) : State :=
  { State.reset with
    rsast := .valid, hasPriv := true, rsaD := 23, rsaP := BitVec.ofNat 1024 p
    rsaQ := BitVec.ofNat 1024 q, dst := 0x3000 }

/-- R221, by hand: 23 mod 10 = 3, 23 mod 6 = 5, 7 · 8 = 56 = 5 · 11 + 1. -/
theorem test_rsaDerive :
    let t := afterWord (smallKey 11 7) 0x53
    (t.rsaDP, t.rsaDQ, t.rsaQP, t.hasCrt) = (3, 5, 8, true) ∧ t.errWord = 0 ∧
      memAt t 0x307F 1 = 3 ∧ memAt t 0x30FF 1 = 5 ∧ memAt t 0x317F 1 = 8 := by
  decide +kernel

/-- R221: P and Q share the factor 3. -/
theorem test_rsaDerive_undefined :
    resultOf (smallKey 9 15) 0x53 = (0x100, 5) ∧ (afterWord (smallKey 9 15) 0x53).rsaDP = 0 := by
  decide +kernel

/-- R253. -/
theorem test_aesRelease :
    let t := afterWord (engine .ctr 1 2 3 4 5) 0x60
    t.statusWord = 1 ∧ t.key = Block.zeros ∧ t.ctr = Block.zeros ∧ t.len = 5 := by
  decide +kernel

/-- R254. -/
theorem test_rsaRelease :
    let t := afterWord (smallKey 11 7) 0x61
    t.statusWord = 1 ∧ t.rsaD = 0 ∧ t.rsaP = 0 ∧ t.hasPriv = false := by
  decide +kernel

/-- R74, V7.2: an illegal word reports IllegalCommand. -/
theorem test_illegalWord : resultOf State.reset 0x00000112 = (0, 6) := by
  decide +kernel

/-! ### A private key of known primes

P = 15607 · 2^1010 + 1 and Q = 14293 · 2^1010 + 1, E = 3. The exponent D and the signature below come
from a calculation outside the model. -/

def keyP : Nat := 15607 * 2 ^ 1010 + 1

def keyQ : Nat := 14293 * 2 ^ 1010 + 1

/-- `lcm(P - 1, Q - 1)`; its double plus one is a multiple of 3. -/
def keyL : Nat := 15607 * 14293 * 2 ^ 1010

def keyD : Nat := (2 * keyL + 1) / 3

/-- The record's fields; DP, DQ and QP absent. -/
def keyImage (priv : Bool) : KeyImage :=
  { n := bytesN 256 (keyP * keyQ), e := [3], d := if priv then bytesN 130 keyD else []
    p := if priv then bytesN 128 keyP else [], q := if priv then bytesN 128 keyQ else []
    dp := [], dq := [], qp := [] }

/-- The rest of every slot of a record filled with one byte. -/
def fillWith (k : KeyImage) (b : Byte) : SlotFill :=
  let rest := fun (size : Nat) (field : Bytes) => List.replicate (size - field.length) b
  { e := rest 8 k.e, d := rest 256 k.d, p := rest 128 k.p, q := rest 128 k.q, dp := rest 128 k.dp
    dq := rest 128 k.dq, qp := rest 128 k.qp }

/-- The record of `keyImage` with its slots filled up. -/
def keyRecordOf (priv : Bool) (b : Byte) : Bytes := (keyImage priv).record (fillWith (keyImage priv) b)

/-- A record at 0, a signature block at 0x1000, the hash at 0x3000 all zero, the output at 0x2000. -/
def keyed (record block : Bytes) : State :=
  put (put { engine .none 0 0 0x1000 0x2000 0 with aux := 0x3000 } 0x1000 block) 0 record

/-- `EM(zeros(32))^D mod N`. -/
def keySig : Nat :=
  0xb55565365edce4a88da068ac779496d953b4b9da016a2ef40852185a4de403736b7ee84e883a997c726d28fc22f5334a4091c5a53554179a4e21030fbaa3c731ddbda41ad1fce01ff1375a802c8fd5501907048eb25fb731cf1bd9b7847fceb367277423aa7d614237ac87778f5fbbd7f04b0c7ff8710f1df3071cb40d662aa9df441de41164059ddd1cfb090ef1c10fba2b162732e809665bbe5eb248ecbf48e73b92a1ce87cef73d44af0ba5c609eab58211a368d8e043a33a0a3222043848306b59e10d37caa03ae54134115ea0b7b12d1cf1368195ba09c1e728fc39875794769e8e39acd0a592e3bb427d61ac8060718b14c1fab5ae48f93ad351746439

/-- What the record of `keyImage` holds. -/
def keyFields (priv : Bool) : KeyRecord :=
  { n := keyP * keyQ, e := 3, d := if priv then keyD else 0, p := if priv then keyP else 0
    q := if priv then keyQ else 0, dp := 0, dq := 0, qp := 0
    hasD := priv, hasP := priv, hasQ := priv, hasDP := false, hasDQ := false, hasQP := false }

/-- R212. -/
theorem test_parse_private : parseKeyRecord (keyRecordOf true 0) = some (keyFields true) := by
  decide +kernel

theorem test_parse_public : parseKeyRecord (keyRecordOf false 0xFF) = some (keyFields false) := by
  decide +kernel

/-- R217, R186: the signature, raised to E, is the encoded message of the hash. -/
theorem test_signature :
    bytesN 256 (modExp keySig 3 (keyP * keyQ)) = encodedMessage (List.replicate 32 0) := by
  decide +kernel

theorem readBack (m : Memory) (a n : Nat) (b : Bytes) (h : b.length = n) :
    (m.writeBytes a b).readBytes a n = b := by
  rw [← h]; exact Memory.readBytes_writeBytes m a b

theorem keyed_record (r block : Bytes) (h : r.length = 1176) :
    (keyed r block).mem.readBytes 0 1176 = r := readBack _ 0 1176 r h

theorem keyed_block (r block : Bytes) (hr : r.length = 1176) (hb : block.length = 256) :
    (keyed r block).mem.readBytes 0x1000 256 = block := by
  apply List.ext_getElem (by simp [hb])
  intro i h1 h2
  rw [Memory.readBytes_getElem]
  simp only [keyed, put]
  rw [Memory.read_writeBytes, if_neg (by omega), Memory.read_writeBytes, if_pos (by omega)]
  simp [List.getD, h2]

theorem keyed_hash (r block : Bytes) (hr : r.length = 1176) (hb : block.length = 256) :
    (keyed r block).mem.readBytes 0x3000 32 = List.replicate 32 0 := by
  apply List.ext_getElem (by simp)
  intro i h1 h2
  simp only [Memory.readBytes_length] at h1
  rw [Memory.readBytes_getElem]
  simp only [keyed, put]
  rw [Memory.read_writeBytes, if_neg (by omega), Memory.read_writeBytes, if_neg (by omega)]
  rw [List.getElem_replicate]; rfl

theorem record_length (priv : Bool) : (keyRecordOf priv 0).length = 1176 := by
  cases priv <;> decide +kernel

/-- Repeated squaring: `b^e mod m` for `e < 2^f`. -/
def powMod : Nat → Nat → Nat → Nat → Nat
  | 0, _, _, m => 1 % m
  | f + 1, b, e, m =>
    if e % 2 = 1 then b * powMod f (b * b % m) (e / 2) m % m else powMod f (b * b % m) (e / 2) m

theorem powMod_eq (f b e m : Nat) (h : e < 2 ^ f) : powMod f b e m = b ^ e % m := by
  induction f generalizing b e with
  | zero => obtain rfl : e = 0 := by simpa using h
            simp [powMod]
  | succ f ih =>
    have he : e = 2 * (e / 2) + e % 2 := by omega
    have key : (b * b % m) ^ (e / 2) % m = b ^ (2 * (e / 2)) % m := by
      rw [pow_mul, ← Nat.pow_mod, sq]
    rw [powMod, ih _ _ (by rw [pow_succ] at h; omega), key]
    split
    · rename_i h1
      conv_rhs => rw [he, h1, pow_succ, mul_comm]
      simp [Nat.mul_mod]
    · rename_i h1
      conv_rhs => rw [he, show e % 2 = 0 by omega, add_zero]

/-- Lucas's criterion with the base 3 for `p = k · 2^(n+1) + 1` and a prime `k`. -/
theorem prime_of_lucas (p k n f : Nat) (hp : p = k * 2 ^ (n + 1) + 1) (hk : k.Prime)
    (hlt : k * 2 ^ (n + 1) < 2 ^ f)
    (h0 : powMod f 3 (k * 2 ^ (n + 1)) p = 1)
    (h2 : powMod f 3 (k * 2 ^ n) p ≠ 1)
    (h3 : powMod f 3 (2 ^ (n + 1)) p ≠ 1) : p.Prime := by
  subst hp
  have pos : 0 < k * 2 ^ (n + 1) := Nat.mul_pos hk.pos (by positivity)
  have one : 1 % (k * 2 ^ (n + 1) + 1) = 1 := Nat.mod_eq_of_lt (by omega)
  have cast : ∀ e, ((3 : ZMod (k * 2 ^ (n + 1) + 1)) ^ e = 1 ↔ 3 ^ e % (k * 2 ^ (n + 1) + 1) = 1) := by
    intro e
    have := ZMod.natCast_eq_natCast_iff' (3 ^ e) 1 (k * 2 ^ (n + 1) + 1)
    rw [one] at this
    rw [← this]; push_cast; rfl
  have half : k * 2 ^ (n + 1) / 2 = k * 2 ^ n := by
    rw [pow_succ, ← mul_assoc, Nat.mul_div_cancel _ two_pos]
  refine lucas_primality _ 3 ?_ ?_
  · rw [Nat.add_sub_cancel, cast, ← powMod_eq f _ _ _ hlt]; exact h0
  · intro q hq hd
    rw [Nat.add_sub_cancel] at hd ⊢
    rw [Ne, cast]
    rcases (Nat.Prime.dvd_mul hq).1 hd with h | h
    · rw [(Nat.prime_dvd_prime_iff_eq hq hk).1 h, Nat.mul_div_cancel_left _ hk.pos,
        ← powMod_eq f _ _ _ (lt_of_le_of_lt (Nat.le_mul_of_pos_left _ hk.pos) hlt)]
      exact h3
    · rw [(Nat.prime_dvd_prime_iff_eq hq Nat.prime_two).1 (hq.dvd_of_dvd_pow h), half,
        ← powMod_eq f _ _ _ (lt_of_le_of_lt (half ▸ Nat.div_le_self _ _) hlt)]
      exact h2

theorem keyP_prime : keyP.Prime :=
  prime_of_lucas keyP 15607 1009 1030 (by decide +kernel) (by norm_num) (by decide +kernel) (by decide +kernel)
    (by decide +kernel) (by decide +kernel)

theorem keyQ_prime : keyQ.Prime :=
  prime_of_lucas keyQ 14293 1009 1030 (by decide +kernel) (by norm_num) (by decide +kernel) (by decide +kernel)
    (by decide +kernel) (by decide +kernel)

/-! ### Witnesses: encoding, the register window, the end of a command -/

theorem witness_DecodeUndoesEncode :
    (Instr.ctrAdd 255).wellFormed = true ∧ (Instr.ctrStream true).wellFormed = true := by decide

theorem witness_EncodeUndoesDecode : decode 0x00FF0032 = .ok (.ctrAdd 255) := by decide

/-- A legal word and an illegal one that differ in one bit. -/
theorem witness_LegalEncodings :
    (∃ i, decode 0x00000134 = .ok i) ∧ ¬∃ i, decode 0x00000334 = .ok i := by
  refine ⟨⟨_, rfl⟩, ?_⟩
  rintro ⟨i, h⟩
  rw [show decode 0x00000334 = .error .reserved by decide] at h
  cases h

theorem witness_StepRunsTheDecodedCommand :
    let s := { State.reset with queue := [.regWrite 32 0x00 0x00FF0032, .reset] }
    s.queue = .regWrite 32 0x00 0x00FF0032 :: [.reset] ∧
      decode 0x00FF0032 = .ok (.ctrAdd 255) ∧ (Instr.ctrAdd 255).wellFormed = true :=
  ⟨rfl, rfl, rfl⟩

/-- Refused by width, by alignment, and just past the window; answered at its last word. -/
theorem witness_RefusedAccessesChangeNothing :
    ((16 : Nat) ≠ 32) ∧ 0x02 % 4 ≠ 0 ∧ 0x60 ≤ 0x60 ∧ ((32 : Nat) = 32 ∧ 0x5C % 4 = 0 ∧ 0x5C < 0x60) := by
  decide

theorem witness_StatusAndErrLayout :
    (engine .cbcDec 0 0 0 0 0).mode = .cbcDec ∧ (sparseKey 1 0).rsast = .uninit ∧
    ({ State.reset with rsast := .invalid } : State).rsast = .invalid ∧
    ({ State.reset with err := some .accessFault } : State).err = some .accessFault :=
  ⟨rfl, rfl, rfl, rfl⟩

/-- A record of VALID = 1 and ELEN = 1 alone: N = 0 fails the public check. -/
def emptyKey : State := put State.reset 0 [1, 1]

theorem reset_rsaInv : State.reset.RsaInv where
  uninit _ := ⟨rfl, rfl, rfl, rfl, rfl, rfl, rfl, rfl, rfl, rfl⟩
  crtPriv h := by cases h
  privValid h := by cases h
  validPublic h := by cases h
  privPrimes h := by cases h
  privExponent h := by cases h
  crtDP h := by cases h
  crtDQ h := by cases h
  crtQP h := by cases h

/-- ECB_ENC before any initialisation; RSA_INIT on the empty key. -/
theorem witness_ErringCommandsChangeOnlyTheResult :
    State.reset.RsaInv ∧
    (∃ t, exec .ecbEnc State.reset = .next t ∧ t.err = some .uninitializedKey) ∧
    ¬(Instr.ecbEnc = .rsaInit ∧ ErrorKind.uninitializedKey = .keyValidationFailed) ∧
    (afterWord emptyKey 0x50).err = some .keyValidationFailed ∧
    ∃ t, exec .rsaInit emptyKey = .next t ∧ t.err = some .keyValidationFailed := by
  refine ⟨reset_rsaInv, ⟨_, rfl, rfl⟩, by decide, by decide +kernel, ?_⟩
  obtain ⟨t, h⟩ := exec_next .rsaInit emptyKey
  refine ⟨t, h, ?_⟩
  have : (match exec .rsaInit emptyKey with
      | .next t => t.err | .fault _ => none | .refused _ => none) = some .keyValidationFailed := by
    decide +kernel
  rwa [h] at this

theorem witness_RetryReproducesTheFailure :
    State.reset.RsaInv ∧
    (∃ t, exec .cbcDec State.reset = .next t ∧ t.err = some .uninitializedKey) ∧
    ¬(Instr.cbcDec = .rsaInit ∧ ErrorKind.uninitializedKey = .keyValidationFailed) ∧
    ∃ t, exec .rsaInit emptyKey = .next t ∧ t.err = some .keyValidationFailed :=
  ⟨reset_rsaInv, ⟨_, rfl, rfl⟩, by decide, witness_ErringCommandsChangeOnlyTheResult.2.2.2.2⟩

theorem witness_AdmissionTableHolds :
    (admission .ctrSet State.reset).error = some .uninitializedKey ∧
    (admission .ecbInitEnc (engine .ctr 0 0 0 0 0)).error = some .illegalCommand ∧
    (admission .rsaDerive { State.reset with rsast := .invalid }).error =
      some .keyValidationFailed ∧
    admission .sha256 State.reset = .ok ∧ admission .rsaDerive (smallKey 11 7) = .ok := by
  decide +kernel

/-- Every premise, each range one byte past the 0x10000 bytes of the platform. -/
theorem witness_ChecksAreMadeInOrder :
    let bad (a n : Nat) : Prop := rangeOK State.reset.backed a n = false
    rangeOK [⟨0xFFFFFFFF, 1⟩] 0xFFFFFFFF 1 = true ∧ rangeOK [⟨0xFFFFFFFF, 2⟩] 0xFFFFFFFF 2 = false ∧
    let e := fun m len => engine m 0 0 0xFFF1 0xFFF1 len
    (∀ m ∈ [Mode.ecbEnc, .ecbDec, .cbcEnc, .cbcDec],
      (e m 17).mode = m ∧ (e m 17).len.toNat % 16 ≠ 0 ∧ (e m 16).len.toNat % 16 = 0 ∧
        (e m 16).len.toNat = 16) ∧
    bad 0xFFF1 16 ∧ bad 0xFFE1 32 ∧ bad 0xFF01 256 ∧ bad 0xFE81 384 ∧ bad (0x10000 - 1175) 1176 ∧
    bad 0xFFFFFFFF 2 ∧ (e .ctr 16).mode = .ctr ∧ (e .none 16).rsast = .uninit ∧
    (smallKey 11 7).rsast = .valid ∧ (smallKey 11 7).hasPriv = true := by
  decide +kernel

theorem witness_CommandsKeepThePointers : ∃ t, exec .sha256 State.reset = .next t :=
  exec_next .sha256 State.reset

/-- The key is changed by reset, by a release and by an init command. -/
theorem witness_KeyChangesOnlyByInitReleaseOrReset :
    let s := engine .ctr 1 0 0 0 0
    let a := { s with queue := [.reset] }
    let c := (staged 1 0).withFetchWord 32 0x10
    (∃ t, step a = .next t ∧ t.key ≠ a.key) ∧
    (∃ t, step (s.withFetchWord 32 0x60) = .next t ∧ t.key ≠ (s.withFetchWord 32 0x60).key) ∧
    ∃ t, step c = .next t ∧ t.key ≠ c.key :=
  ⟨⟨_, rfl, by decide +kernel⟩, ⟨_, rfl, by decide +kernel⟩, ⟨_, rfl, by decide +kernel⟩⟩

theorem witness_AesAndRsaAreIndependent :
    isAesCommand .aesRelease = true ∧ isRsaCommand .rsaRelease = true ∧
    (∃ t, exec .aesRelease State.reset = .next t) ∧ ∃ t, exec .rsaRelease State.reset = .next t :=
  ⟨by decide, by decide, ⟨_, rfl⟩, ⟨_, rfl⟩⟩

theorem witness_RegisterCommandsResult :
    State.reset.mode = .none ∧ (engine .ctr 0 0 0 0 0).mode = .ctr := ⟨rfl, rfl⟩

/-! ### Witnesses: the block commands -/

theorem witness_AesIsBuiltFromItsRounds : 3 < 4 ∧ 15 < 16 ∧ 1 ≤ 1 ∧ 1 < 10 ∧ 1 ≤ 9 ∧ 9 < 10 := by decide

theorem witness_KeyExpansionRecurrence :
    10 < 11 ∧ 4 ≤ 4 ∧ 43 < 44 ∧ 3 < 4 ∧ 4 % 4 = 0 ∧ 43 % 4 ≠ 0 := by
  decide

/-- The last 16 bytes of the platform, 16 bytes at 0, and a length of 0 at the end of the address
space. -/
def blockReady (m : Mode) : Prop :=
  (let s := engine m 1 0 0 0xFFF0 16;
    s.mode = m ∧ s.len.toNat % 16 = 0 ∧ rangeOK s.backed s.src.toNat s.len.toNat = true ∧
      rangeOK s.backed s.dst.toNat s.len.toNat = true ∧
      sameOrDisjoint s.src.toNat s.dst.toNat s.len.toNat ∧ 0 < s.len.toNat / 16) ∧
  (let s := engine m 1 0 0x4010 0x4000 16;
    s.mode = m ∧ s.len.toNat % 16 = 0 ∧ rangeOK s.backed s.src.toNat s.len.toNat = true ∧
      rangeOK s.backed s.dst.toNat s.len.toNat = true ∧
      sameOrDisjoint s.src.toNat s.dst.toNat s.len.toNat) ∧
  (let s := engine m 1 0 0x4000 0x4000 32;
    s.mode = m ∧ s.src = s.dst ∧ s.len.toNat % 16 = 0 ∧
      rangeOK s.backed s.src.toNat s.len.toNat = true ∧
      sameOrDisjoint s.src.toNat s.dst.toNat s.len.toNat ∧ 16 % 16 = 0 ∧ 16 ≤ s.len.toNat) ∧
  (let s := engine m 1 0 0xFFFFFFFF 0xFFFFFFFF 0;
    s.mode = m ∧ s.len.toNat % 16 = 0 ∧ rangeOK s.backed s.src.toNat s.len.toNat = true ∧
      rangeOK s.backed s.dst.toNat s.len.toNat = true)

theorem witness_EcbCommandsGoBlockByBlock : blockReady .ecbEnc ∧ blockReady .ecbDec := by
  unfold blockReady sameOrDisjoint; decide +kernel

theorem witness_EcbInPlaceAndDisjointAgree : blockReady .ecbEnc ∧ blockReady .ecbDec :=
  witness_EcbCommandsGoBlockByBlock

theorem witness_EcbRoundTripInPlace : blockReady .ecbEnc := witness_EcbCommandsGoBlockByBlock.1

theorem witness_CbcCommandsGoBlockByBlock : blockReady .cbcEnc ∧ blockReady .cbcDec := by
  unfold blockReady sameOrDisjoint; decide +kernel

theorem witness_CbcInPlaceAndDisjointAgree : blockReady .cbcEnc ∧ blockReady .cbcDec :=
  witness_CbcCommandsGoBlockByBlock

theorem witness_CbcChainRunsAcrossCommands : blockReady .cbcEnc ∧ blockReady .cbcDec :=
  witness_CbcCommandsGoBlockByBlock

theorem witness_CbcRoundTripInPlace : blockReady .cbcEnc := witness_CbcCommandsGoBlockByBlock.1

theorem witness_ShaPaddingShape :
    ([] : Bytes).length < 2 ^ 32 ∧ (List.replicate 56 (0x61 : Byte)).length < 2 ^ 32 ∧
    (shaPad []).length = 64 ∧ 0 < 1 ∧ 55 + 8 < 64 := by
  decide +kernel

/-- An empty message, and a digest that ends with the platform. -/
theorem witness_Sha256CommandResult :
    let s := engine .cbcEnc 0 0 0xFFFFFFFF 0xFFE0 0
    rangeOK s.backed s.src.toNat s.len.toNat = true ∧ rangeOK s.backed s.dst.toNat 32 = true := by
  decide +kernel

theorem witness_AddCounterAddsModulo :
    (Block.ofNat (2 ^ 128 - 1)).toNat = 2 ^ 128 - 1 ∧ 255 < 256 := by
  decide +kernel

/-- With an input, and keystream only with SRC outside the platform. -/
theorem witness_CtrBlockResult :
    (let s := engine .ctr 1 2 0 0xFFF0 0xFFFFFFFF;
      s.mode = .ctr ∧ rangeOK s.backed s.src.toNat 16 = true ∧
        rangeOK s.backed s.dst.toNat 16 = true) ∧
    let s := engine .ctr 1 2 0xFFFFFFF8 0 0
    s.mode = .ctr ∧ (true = false → rangeOK s.backed s.src.toNat 16 = true) ∧
      rangeOK s.backed s.dst.toNat 16 = true := by
  decide +kernel

/-- Lengths of whole blocks, with a tail, and zero; keystream only with SRC outside the platform. -/
theorem witness_CtrStreamGoesBlockByBlock :
    (∀ len ∈ [0, 1, 16, 17], let s := engine .ctr 1 2 0x4000 0xFFEF len;
      s.mode = .ctr ∧ rangeOK s.backed s.src.toNat s.len.toNat = true ∧
        rangeOK s.backed s.dst.toNat s.len.toNat = true ∧
        sameOrDisjoint s.src.toNat s.dst.toNat s.len.toNat) ∧
    let s := engine .ctr 1 2 0xFFFFFFF8 0 16
    s.mode = .ctr ∧ (true = false → rangeOK s.backed s.src.toNat 16 = true) ∧
      rangeOK s.backed s.dst.toNat s.len.toNat = true := by
  unfold sameOrDisjoint; decide +kernel

theorem witness_CtrStreamBytes :
    (∀ len ∈ [0, 1, 16, 17], let s := engine .ctr 1 2 0x4000 0xFFEF len;
      s.mode = .ctr ∧ rangeOK s.backed s.src.toNat s.len.toNat = true ∧
        rangeOK s.backed s.dst.toNat s.len.toNat = true ∧
        sameOrDisjoint s.src.toNat s.dst.toNat s.len.toNat) ∧
    let s := engine .ctr 1 2 0xFFFFFFF8 0 16
    s.mode = .ctr ∧ (true = false → rangeOK s.backed s.src.toNat 16 = true) ∧
      rangeOK s.backed s.dst.toNat s.len.toNat = true :=
  witness_CtrStreamGoesBlockByBlock

/-- Split at the start, inside and at the end. -/
theorem witness_CtrStreamSplitsAtBlocks :
    let s := engine .ctr 1 2 0x4000 0x4010 32
    s.mode = .ctr ∧ (∀ a ∈ [0, 16, 32], a % 16 = 0 ∧ a ≤ s.len.toNat) ∧
      rangeOK s.backed s.src.toNat s.len.toNat = true ∧
      rangeOK s.backed s.dst.toNat s.len.toNat = true := by
  decide +kernel

theorem witness_CtrStreamRoundTripInPlace :
    let s := engine .ctr 1 2 0x4000 0x4000 17
    s.mode = .ctr ∧ s.src = s.dst ∧ rangeOK s.backed s.src.toNat s.len.toNat = true := by
  decide +kernel

theorem witness_KeystreamOnlyEqualsZeroInput :
    let s := engine .ctr 1 2 0x4000 0x5000 17
    s.mode = .ctr ∧ rangeOK s.backed s.src.toNat s.len.toNat = true ∧
      rangeOK s.backed s.dst.toNat s.len.toNat = true ∧
      sameOrDisjoint s.src.toNat s.dst.toNat s.len.toNat ∧
      (∀ k < s.len.toNat, s.mem.read (s.src.toNat + k) = 0) ∧
      rangeOK s.backed s.src.toNat 16 = true ∧ rangeOK s.backed s.dst.toNat 16 = true ∧
      ∀ k < 16, s.mem.read (s.src.toNat + k) = 0 := by
  unfold sameOrDisjoint; decide +kernel

/-! ### Witnesses: big integers -/

/-- V5.1, V5.2. -/
theorem test_bigint :
    modInv 3 7 = some 5 ∧ modInv 65537 (2 ^ 32) = some 4294901761 ∧ modInv 6 9 = none ∧
    modInv 7 7 = none ∧ modInv 1 2 = some 1 ∧ montNPrime 256 239 = 241 ∧
    montMul 256 241 239 100 200 = 108 ∧ montMulWords 8 4 239 100 200 = 108 := by
  decide +kernel

theorem witness_ModInvIsTheInverse :
    (2 ≤ 2 ∧ Nat.gcd (1 % 2) 2 = 1) ∧ 1 < 2 ∧ (2 ≤ 9 ∧ Nat.gcd (6 % 9) 9 ≠ 1) := by decide

theorem witness_MontgomeryProductIsCorrect :
    (0 < 8 ∧ 239 % 2 = 1 ∧ 239 < 2 ^ 8 ∧ 238 < 239) ∧ (0 < 1 ∧ 1 % 2 = 1 ∧ 1 < 2 ^ 1 ∧ 0 < 1) := by
  decide

theorem witness_WordSerialMultiplierAgrees :
    0 < 4 ∧ 0 < 8 ∧ 4 ∣ 8 ∧ 8 ∣ 8 ∧ 239 % 2 = 1 ∧ 239 < 2 ^ 8 ∧ 238 < 239 := by decide

theorem witness_ExponentiationEngineComputesModExp :
    2 ^ 2048 - 1 < 2 ^ 2048 ∧ 1 ≤ 1 ∧ (2 ^ 2047 + 1) % 2 = 1 ∧ bitlen (2 ^ 2047 + 1) = 2048 ∧
      bitlen (2 ^ 2048 - 1) = 2048 := by
  decide +kernel

/-! ### Witnesses: RSA -/

/-- The shortest fields with slots filled each in its own way, and the longest with none to fill. -/
theorem witness_ParseReadsTheRecordLayout :
    (∃ f : SlotFill, (keyImage false).Fills f ∧ 1 ≤ (keyImage false).e.length ∧
      f.e = [1, 2, 3, 4, 5, 6, 7] ∧ f.d = bytesN 256 0xD0 ∧ f.qp ≠ f.dq) ∧
    ∃ (k : KeyImage) (f : SlotFill), k.Fills f ∧ k.e.length = 8 ∧ f.e = [] ∧ f.d = [] ∧ f.qp = [] := by
  refine ⟨⟨⟨[1, 2, 3, 4, 5, 6, 7], bytesN 256 0xD0, bytesN 128 1, bytesN 128 2, bytesN 128 3,
      bytesN 128 4, bytesN 128 5⟩, ?_, by decide, rfl, rfl, by decide +kernel⟩,
    ⟨bytesN 256 7, bytesN 8 3, bytesN 256 1, bytesN 128 1, bytesN 128 1, bytesN 128 1, bytesN 128 1,
      bytesN 128 1⟩, ⟨[], [], [], [], [], [], []⟩, ?_, by simp⟩
  · constructor <;> decide +kernel
  · constructor <;> simp

theorem witness_ParseFailsOnMalformedRecords :
    (List.replicate 1176 (0 : Byte)).length = 1176 ∧ (keyRecordOf true 0).length = 1176 :=
  ⟨List.length_replicate, record_length true⟩

/-- Each alternative of the two checks on small numbers: P = 3, Q = 5, D = E = 3 (by hand: 9 mod 4 = 1,
3 mod 2 = 1, 3 mod 4 = 3, 2 · 5 mod 3 = 1). -/
theorem witness_KeyChecksAreTheRules :
    publicCheck (2 ^ 2047 + 1) 3 = true ∧ publicCheck (2 ^ 2048) 3 = false ∧
    publicCheck (2 ^ 2047 + 1) 1 = false ∧
    privateCheck (keyFields false) = some (false, false) ∧
    privateCheck ⟨15, 3, 3, 3, 5, 0, 0, 0, true, true, true, false, false, false⟩ =
      some (true, false) ∧
    privateCheck ⟨15, 3, 3, 3, 5, 1, 3, 2, true, true, true, true, true, true⟩ =
      some (true, true) ∧
    privateCheck ⟨15, 3, 3, 3, 5, 1, 3, 2, true, true, true, true, false, true⟩ = none := by
  decide +kernel

theorem witness_EncodedMessageIsTheSixChecks :
    (List.replicate 32 (0 : Byte)).length = 32 ∧
      (encodedMessage (List.replicate 32 0)).length = 256 := by
  decide +kernel

/-- The private key of `keyImage` passes both checks. -/
theorem key_checks :
    publicCheck (keyFields true).n (keyFields true).e = true ∧
      privateCheck (keyFields true) = some (true, false) := by
  decide +kernel

theorem keyed_keyRecord (r block : Bytes) (k : KeyRecord) (h : r.length = 1176)
    (hp : parseKeyRecord r = some k) : (keyed r block).keyRecord = some k := by
  have e : (keyed r block).keyRecord = parseKeyRecord ((keyed r block).mem.readBytes 0 1176) := rfl
  rw [e, keyed_record r block h, hp]

theorem ranges_ready (r block : Bytes) :
    (keyed r block).rsast = .uninit ∧
    rangeOK (keyed r block).backed (keyed r block).keyptr.toNat 1176 = true ∧
    rangeOK (keyed r block).backed (keyed r block).src.toNat 256 = true ∧
    rangeOK (keyed r block).backed (keyed r block).dst.toNat 256 = true ∧
    rangeOK (keyed r block).backed (keyed r block).aux.toNat 32 = true := by
  have h : rangeOK Config.testPlatform 0 1176 = true ∧ rangeOK Config.testPlatform 0x1000 256 = true ∧
      rangeOK Config.testPlatform 0x2000 256 = true ∧ rangeOK Config.testPlatform 0x3000 32 = true := by
    decide +kernel
  exact ⟨rfl, h.1, h.2.1, h.2.2.1, h.2.2.2⟩

theorem witness_RsaInitLoadsTheKey :
    let s := keyed (keyRecordOf true 0) []
    s.rsast = .uninit ∧ rangeOK s.backed s.keyptr.toNat 1176 = true ∧
      s.keyRecord = some (keyFields true) ∧
      publicCheck (keyFields true).n (keyFields true).e = true ∧
      privateCheck (keyFields true) = some (true, false) :=
  ⟨(ranges_ready _ _).1, (ranges_ready _ _).2.1,
    keyed_keyRecord _ _ _ (record_length true) test_parse_private, key_checks⟩

/-- A record that does not parse (buffer memory with nothing listed), and one that fails a check. -/
theorem witness_BadKeyRecordsAreReported :
    (let s := State.reset;
      s.rsast = .uninit ∧ rangeOK s.backed s.keyptr.toNat 1176 = true ∧ s.keyRecord = none ∧
        rangeOK s.backed s.src.toNat 256 = true ∧ rangeOK s.backed s.dst.toNat 256 = true ∧
        rangeOK s.backed s.aux.toNat 32 = true) ∧
    let s := emptyKey
    s.rsast = .uninit ∧ rangeOK s.backed s.keyptr.toNat 1176 = true ∧
      (∃ r, s.keyRecord = some r ∧ (publicCheck r.n r.e = false ∨ privateCheck r = none)) ∧
      rangeOK s.backed s.src.toNat 256 = true ∧ rangeOK s.backed s.dst.toNat 256 = true ∧
      rangeOK s.backed s.aux.toNat 32 = true := by
  refine ⟨by decide +kernel, rfl, by decide +kernel, ?_, by decide +kernel, by decide +kernel,
    by decide +kernel⟩
  have h : emptyKey.keyRecord =
      some ⟨0, 0, 0, 0, 0, 0, 0, 0, false, false, false, false, false, false⟩ := by decide +kernel
  exact ⟨_, h, .inl (by decide +kernel)⟩

/-- The public record with the good signature, and with a block that is none. -/
theorem witness_RsaVerifyComparesTheTransform :
    (let s := keyed (keyRecordOf false 0xFF) (bytesN 256 keySig);
      s.rsast = .uninit ∧ rangeOK s.backed s.keyptr.toNat 1176 = true ∧
        rangeOK s.backed s.src.toNat 256 = true ∧ rangeOK s.backed s.aux.toNat 32 = true ∧
        s.keyRecord = some (keyFields false) ∧
        publicCheck (keyFields false).n (keyFields false).e = true ∧
        privateCheck (keyFields false) ≠ none ∧
        bytesN 256 (be (s.mem.readBytes 0x1000 256) ^ (keyFields false).e % (keyFields false).n) =
          encodedMessage (List.replicate 32 0)) ∧
    let s := keyed (keyRecordOf false 0xFF) (bytesN 256 2)
    s.keyRecord = some (keyFields false) ∧
      bytesN 256 (be (s.mem.readBytes 0x1000 256) ^ (keyFields false).e % (keyFields false).n) ≠
        encodedMessage (List.replicate 32 0) := by
  have hl : (keyRecordOf false 0xFF).length = 1176 := by decide +kernel
  have r := ranges_ready (keyRecordOf false 0xFF) (bytesN 256 keySig)
  refine ⟨⟨r.1, r.2.1, r.2.2.1, r.2.2.2.2, keyed_keyRecord _ _ _ hl test_parse_public,
    by decide +kernel, by decide +kernel, ?_⟩, keyed_keyRecord _ _ _ hl test_parse_public, ?_⟩
  · rw [keyed_block _ _ hl (bytesN_length _ _)]; decide +kernel
  · rw [keyed_block _ _ hl (bytesN_length _ _)]; decide +kernel

theorem witness_RsaRawWritesTheTransform :
    let s := keyed (keyRecordOf false 0xFF) (bytesN 256 2)
    s.rsast = .uninit ∧ rangeOK s.backed s.keyptr.toNat 1176 = true ∧
      rangeOK s.backed s.src.toNat 256 = true ∧ rangeOK s.backed s.dst.toNat 256 = true ∧
      s.keyRecord = some (keyFields false) ∧
      publicCheck (keyFields false).n (keyFields false).e = true ∧
      privateCheck (keyFields false) ≠ none := by
  have r := ranges_ready (keyRecordOf false 0xFF) (bytesN 256 2)
  exact ⟨r.1, r.2.1, r.2.2.1, r.2.2.2.1,
    keyed_keyRecord _ _ _ (by decide +kernel) test_parse_public, by decide +kernel,
    by decide +kernel⟩

/-- A loaded private key: P, Q, D and E = 3 as given, and the CRT registers where `crt`. -/
def loadedKey (p q d : Nat) (crt : Bool) (dp dq qp : Nat) : State :=
  { State.reset with
    rsast := .valid, hasPriv := true, hasCrt := crt, rsaN := BitVec.ofNat 2048 (p * q), rsaE := 3
    rsaD := BitVec.ofNat 2048 d, rsaP := BitVec.ofNat 1024 p, rsaQ := BitVec.ofNat 1024 q
    rsaDP := BitVec.ofNat 1024 dp, rsaDQ := BitVec.ofNat 1024 dq, rsaQP := BitVec.ofNat 1024 qp
    dst := 0x10000 - 384 }

/-- Q⁻¹ mod P, calculated outside the model. -/
def keyQP : Nat :=
  0xb9075d20574815d20574815d20574815d20574815d20574815d20574815d20574815d20574815d20574815d20574815d20574815d20574815d20574815d20574815d20574815d20574815d20574815d20574815d20574815d20574815d20574815d20574815d20574815d20574815d20574815d20574815d20574815d205748e

/-- P and Q coprime, the CRT registers absent, and present; P = Q = 2^1024 − 1. -/
theorem witness_RsaDeriveCompletesTheKey :
    (∀ s ∈ [loadedKey keyP keyQ keyD false 0 0 0,
        loadedKey keyP keyQ keyD true (keyD % (keyP - 1)) (keyD % (keyQ - 1)) keyQP],
      s.RsaInv ∧ s.rsast = .valid ∧ s.hasPriv = true ∧ rangeOK s.backed s.dst.toNat 384 = true ∧
        Nat.Coprime s.rsaP.toNat s.rsaQ.toNat) ∧
    let s := loadedKey (2 ^ 1024 - 1) (2 ^ 1024 - 1) ((2 ^ 1024 - 1) / 3) false 0 0 0
    s.RsaInv ∧ s.rsast = .valid ∧ s.hasPriv = true ∧ rangeOK s.backed s.dst.toNat 384 = true ∧
      ¬Nat.Coprime s.rsaP.toNat s.rsaQ.toNat := by
  have inv : ∀ p q d crt dp dq qp, let s := loadedKey p q d crt dp dq qp
      (bitlen s.rsaN.toNat = 2048 ∧ s.rsaN.toNat % 2 = 1) →
      s.rsaN.toNat = s.rsaP.toNat * s.rsaQ.toNat →
      s.rsaD.toNat * s.rsaE.toNat ≡ 1 [MOD Nat.lcm (s.rsaP.toNat - 1) (s.rsaQ.toNat - 1)] →
      (crt = true → s.rsaDP.toNat = s.rsaD.toNat % (s.rsaP.toNat - 1) ∧
        s.rsaDQ.toNat = s.rsaD.toNat % (s.rsaQ.toNat - 1) ∧ s.rsaQP.toNat < s.rsaP.toNat ∧
        s.rsaQP.toNat * s.rsaQ.toNat ≡ 1 [MOD s.rsaP.toNat]) → s.RsaInv := by
    intro p q d crt dp dq qp s h1 h2 h3 h4
    exact ⟨fun h => (by cases h), fun _ => rfl, fun _ => rfl,
      fun _ => ⟨h1.1, h1.2, show (3#64).toNat % 2 = 1 by decide, show 3 ≤ (3#64).toNat by decide⟩,
      fun _ => h2, fun _ => h3,
      fun h => (h4 h).1, fun h => (h4 h).2.1, fun h => (h4 h).2.2⟩
  refine ⟨?_, inv _ _ _ _ _ _ _ ?_ ?_ ?_ ?_, ?_⟩
  · rintro s hs
    rcases List.mem_cons.1 hs with rfl | hs
    · refine ⟨inv _ _ _ _ _ _ _ ?_ ?_ ?_ ?_, ?_⟩ <;> decide +kernel
    · rw [List.mem_singleton.1 hs]
      refine ⟨inv _ _ _ _ _ _ _ ?_ ?_ ?_ ?_, ?_⟩ <;> decide +kernel
  all_goals decide +kernel

theorem signed_ready (block : Bytes) (h : block.length = 256) :
    let s := keyed (keyRecordOf true 0) block
    s.rsast = .uninit ∧ rangeOK s.backed s.keyptr.toNat 1176 = true ∧
      rangeOK s.backed s.src.toNat 256 = true ∧ rangeOK s.backed s.dst.toNat 256 = true ∧
      rangeOK s.backed s.aux.toNat 32 = true ∧ s.keyRecord = some (keyFields true) ∧
      s.mem.readBytes s.aux.toNat 32 = List.replicate 32 0 ∧
      s.mem.readBytes s.src.toNat 256 = block := by
  have r := ranges_ready (keyRecordOf true 0) block
  exact ⟨r.1, r.2.1, r.2.2.1, r.2.2.2.1, r.2.2.2.2,
    keyed_keyRecord _ _ _ (record_length true) test_parse_private,
    keyed_hash _ _ (record_length true) h, keyed_block _ _ (record_length true) h⟩

/-- The signature itself, and with its first and its last bit flipped; P and Q distinct primes. -/
theorem witness_SignatureOfTheHashVerifies (sig : Nat)
    (_ : sig = be (encodedMessage (List.replicate 32 0)) ^ (keyFields true).d % (keyFields true).n) :
    (publicCheck (keyFields true).n (keyFields true).e = true ∧
      privateCheck (keyFields true) = some (true, false) ∧ (keyFields true).p.Prime ∧
      (keyFields true).q.Prime ∧ (keyFields true).p ≠ (keyFields true).q) ∧
    ∀ block ∈ [bytesN 256 sig, bytesN 256 (sig ^^^ 2 ^ 0), bytesN 256 (sig ^^^ 2 ^ 2047)],
      let s := keyed (keyRecordOf true 0) block
      s.rsast = .uninit ∧ rangeOK s.backed s.keyptr.toNat 1176 = true ∧
      rangeOK s.backed s.src.toNat 256 = true ∧ rangeOK s.backed s.dst.toNat 256 = true ∧
      rangeOK s.backed s.aux.toNat 32 = true ∧ s.keyRecord = some (keyFields true) ∧
      s.mem.readBytes s.aux.toNat 32 = List.replicate 32 0 ∧
      s.mem.readBytes s.src.toNat 256 = block := by
  refine ⟨⟨key_checks.1, key_checks.2, keyP_prime, keyQ_prime, by decide +kernel⟩, ?_⟩
  intro block hb
  apply signed_ready
  simp only [List.mem_cons, List.not_mem_nil, or_false] at hb
  rcases hb with rfl | rfl | rfl <;> exact bytesN_length _ _

/-! ### Witnesses: steps and invariants -/

/-- Nothing pending; an access within the platform, to its last byte; and one a byte past it. -/
theorem witness_StepsStopOnlyOnUnbackedHostAccess :
    State.reset.queue = [] ∧
    (HostAction.memStore 0xFFFF [1]).withinPlatform State.reset.backed = true ∧
    (HostAction.memLoad 0xFFFF 2).withinPlatform State.reset.backed = false ∧
    ({ State.reset with queue := [.memLoad 0xFFFF 2] } : State).queue = .memLoad 0xFFFF 2 :: [] ∧
    rangeOK State.reset.backed 0xFFFF 1 = true ∧ rangeOK State.reset.backed 0 0 = true ∧ 15 < 16 := by
  decide +kernel

theorem reset_memInv : State.reset.MemInv := ⟨rfl, rfl⟩

/-- A store by the host, and an AES initialisation, from states that have the invariants. -/
theorem witness_StepKeepsMemoryInvariant :
    let s := { State.reset with queue := [.memStore 0xFFFF [1]] }
    s.MemInv ∧ ∃ t, step s = .next t ∧ t.mem ≠ s.mem :=
  ⟨⟨rfl, rfl⟩, _, rfl, by decide +kernel⟩

theorem witness_StepKeepsAesInvariant :
    let s := (staged 1 2).withFetchWord 32 0x30
    s.AesInv ∧ ∃ t, step s = .next t ∧ t.mode = .ctr :=
  ⟨⟨fun _ => rfl, fun _ => rfl, fun _ _ => rfl⟩, _, rfl, by decide +kernel⟩

theorem witness_StepKeepsRsaInvariant :
    State.reset.RsaInv ∧ ∃ t, step (State.reset.withFetchWord 32 0x61) = .next t :=
  ⟨reset_rsaInv, _, rfl⟩

end Sys2Proof.Machine.Tests
end

/-! ## What one command and one host action can do

The inversion lemmas of this part say once which registers a command (30_encoding.md R71) and an
action of the host (10_state.md R10) can change, and to what. The invariants and frame statements
of 10_state.md are case analyses over them. -/

namespace Sys2Proof.Machine

/-! ### Commands -/

/-- The five AES init commands (R252). -/
def aesInitCommands : List Instr := [.ecbInitEnc, .ecbInitDec, .ctrInit, .cbcInitEnc, .cbcInitDec]

/-- What a command can do to the registers, buffer memory left open: the state `t` that command `i`
can leave when it starts in `s`. `exec_effect` ties it to `exec`. -/
inductive CommandEffect (s : State) (i : Instr) : State → Prop
  /-- an error before any change -/
  | raised (k : ErrorKind) : CommandEffect s i (s.raise k)
  | initEcb (m : Mode) (hi : i ∈ aesInitCommands) (hs : s.mode = .none)
      (hm : m = .ecbEnc ∨ m = .ecbDec) :
      CommandEffect s i (s.initAes m).finish
  | initCtr (hi : i ∈ aesInitCommands) (hs : s.mode = .none) :
      CommandEffect s i ((s.initAes .ctr).setCtr s.vecin).finish
  | initCbc (m : Mode) (hi : i ∈ aesInitCommands) (hs : s.mode = .none)
      (hm : m = .cbcEnc ∨ m = .cbcDec) : CommandEffect s i ((s.initAes m).setIv s.vecin).finish
  | wroteMem (m : Memory) : CommandEffect s i (s.setMem m).finish
  | movedCtr (m : Memory) (c : Block) (hs : s.mode = .ctr) :
      CommandEffect s i ((s.setMem m).setCtr c).finish
  | movedIv (m : Memory) (v : Block) (hs : s.mode = .cbcEnc ∨ s.mode = .cbcDec) :
      CommandEffect s i ((s.setMem m).setIv v).finish
  | acceptedKey (rec : Bytes) (r : KeyRecord) (priv crt : Bool) (hl : parseKeyRecord rec = some r)
      (hpub : publicCheck r.n r.e = true) (hpriv : privateCheck r = some (priv, crt)) :
      CommandEffect s i ((s.loadFields r).setRsaStatus .valid priv crt).finish
  | rejectedKey (r : KeyRecord) :
      CommandEffect s i
        (((s.loadFields r).setRsaStatus .invalid false false).raise .keyValidationFailed)
  | releasedRsa (m : Memory) (e : Option ErrorKind) :
      CommandEffect s i ((s.releaseRsa.setMem m).endWith e)
  | derivedCrt (m : Memory) (qp : Nat) (hs : s.rsast = .valid) (hp : s.hasPriv = true)
      (hq : modInv s.rsaQ.toNat s.rsaP.toNat = some qp) :
      CommandEffect s i
        ((s.setCrt (s.rsaD.toNat % (s.rsaP.toNat - 1)) (s.rsaD.toNat % (s.rsaQ.toNat - 1))
          qp).setMem m).finish
  | releasedAes (hi : i = .aesRelease) : CommandEffect s i s.releaseAes.finish

theorem firstError_cons_eq_none {c : Option ErrorKind} {cs : List (Option ErrorKind)}
    (h : firstError (c :: cs) = none) : c = none :=
  (firstError_eq_none_iff _).1 h c (by simp)

/-- A command ends before any change, or as its body says. -/
theorem State.command_effect {s t : State} {i : Instr} {cs : List (Option ErrorKind)}
    {body : State → State × Option ErrorKind} (h : s.command cs body = .next t)
    (hbody : firstError cs = none → CommandEffect s i ((body s).1.endWith (body s).2)) :
    CommandEffect s i t := by
  obtain ⟨k, -, rfl⟩ | ⟨hc, rfl⟩ := State.command_cases h
  · exact .raised k
  · exact hbody hc

/-- A load leaves nothing of itself behind a release (45_rsa.md R218). -/
theorem State.releaseRsa_loadKey (s : State) (a : Nat) : (s.loadKey a).1.releaseRsa = s.releaseRsa := by
  obtain ⟨-, h⟩ | ⟨r, -, ⟨-, h⟩ | ⟨priv, crt, -, -, h⟩⟩ := s.loadKey_cases a <;> rw [h] <;> rfl

theorem execRsaInit_effect {s t : State} {i : Instr} (h : execRsaInit s = .next t) :
    CommandEffect s i t := by
  refine State.command_effect h fun _ => ?_
  obtain ⟨-, hl⟩ | ⟨r, hr, ⟨-, hl⟩ | ⟨priv, crt, hpub, hpriv, hl⟩⟩ := s.loadKey_cases s.keyptr.toNat
  · rw [hl]; exact .raised _
  · rw [hl]; exact .rejectedKey r
  · rw [hl]; exact .acceptedKey _ r priv crt hr hpub hpriv

theorem execRsaVerify_effect {s t : State} {i : Instr} (h : execRsaVerify s = .next t) :
    CommandEffect s i t := by
  refine State.command_effect h fun _ => ?_
  simp only [State.releaseRsa_loadKey]
  split
  · exact .releasedRsa s.mem _
  · exact .releasedRsa s.mem _

theorem execRsaRaw_effect {s t : State} {i : Instr} (h : execRsaRaw s = .next t) :
    CommandEffect s i t := by
  refine State.command_effect h fun _ => ?_
  simp only [State.releaseRsa_loadKey]
  split
  · exact .releasedRsa s.mem _
  · exact .releasedRsa _ none

theorem execRsaDerive_effect {s t : State} {i : Instr} (h : execRsaDerive s = .next t) :
    CommandEffect s i t := by
  refine State.command_effect h fun hc => ?_
  obtain ⟨hvalid, hpriv⟩ := (deriveCheck_eq_none_iff s).1 (firstError_cons_eq_none hc)
  simp only [deriveBody]
  cases hq : modInv s.rsaQ.toNat s.rsaP.toNat with
  | none => exact .raised _
  | some qp => exact .derivedCrt _ qp hvalid hpriv hq

/-- All a command can do. -/
theorem exec_effect {i : Instr} {s t : State} (h : exec i s = .next t) : CommandEffect s i t := by
  have fresh {cs} (hc : firstError (initCheck s :: cs) = none) : s.mode = .none :=
    (initCheck_eq_none_iff s).1 (firstError_cons_eq_none hc)
  have inMode {m cs} (hm : m ≠ .none) (hc : firstError (useCheck m s :: cs) = none) : s.mode = m :=
    (useCheck_eq_none_iff hm s).1 (firstError_cons_eq_none hc)
  unfold exec at h
  cases i with
  | ecbInitEnc => exact State.command_effect h fun hc => .initEcb _ (by decide) (fresh hc) (.inl rfl)
  | ecbInitDec => exact State.command_effect h fun hc => .initEcb _ (by decide) (fresh hc) (.inr rfl)
  | ecbEnc => exact State.command_effect h fun _ => .wroteMem _
  | ecbDec => exact State.command_effect h fun _ => .wroteMem _
  | sha256 => exact State.command_effect h fun _ => .wroteMem _
  | ctrInit => exact State.command_effect h fun hc => .initCtr (by decide) (fresh hc)
  | ctrSet => exact State.command_effect h fun hc => .movedCtr s.mem _ (inMode (by decide) hc)
  | ctrAdd imm => exact State.command_effect h fun hc => .movedCtr s.mem _ (inMode (by decide) hc)
  | ctrBlock ks => exact State.command_effect h fun hc => .movedCtr _ _ (inMode (by decide) hc)
  | ctrStream ks =>
    refine State.command_effect h fun hc => ?_
    simp only [State.endWith_none]
    rw [ctrStreamBody_eq]
    exact .movedCtr _ _ (inMode (by decide) hc)
  | cbcInitEnc => exact State.command_effect h fun hc => .initCbc _ (by decide) (fresh hc) (.inl rfl)
  | cbcInitDec => exact State.command_effect h fun hc => .initCbc _ (by decide) (fresh hc) (.inr rfl)
  | cbcEnc => exact State.command_effect h fun hc => .movedIv _ _ (.inl (inMode (by decide) hc))
  | cbcDec => exact State.command_effect h fun hc => .movedIv _ _ (.inr (inMode (by decide) hc))
  | rsaInit => exact execRsaInit_effect h
  | rsaVerify => exact execRsaVerify_effect h
  | rsaRaw => exact execRsaRaw_effect h
  | rsaDerive => exact execRsaDerive_effect h
  | aesRelease => exact State.command_effect h fun _ => .releasedAes rfl
  | rsaRelease => exact State.command_effect h fun _ => .releasedRsa s.mem none

/-! ### Host actions -/

/-- What one action of the host can do; `perform_effect` ties it to `perform`. -/
inductive HostEffect (s : State) : HostAction → State → Prop
  /-- a read, or a refused access: no register changes -/
  | answered (a : HostAction) (r : Reply) : HostEffect s a (s.setReply r)
  | stored (a : HostAction) (m : Memory) : HostEffect s a ((s.setMem m).setReply .done)
  | wroteReg (a : HostAction) (r : Reg) (v : Word) : HostEffect s a ((s.writeReg r v).setReply .done)
  | ran (w : Word) (i : Instr) (t : State) (hd : decode w = .ok i)
      (ht : CommandEffect (s.setReply .done) i t) : HostEffect s (.regWrite 32 0x00 w) t
  | illegal (a : HostAction) : HostEffect s a ((s.setReply .done).raise .illegalCommand)
  | reset : HostEffect s .reset (s.resetRegisters.setReply .done)

/-- CMD stands at offset 0x00 and nowhere else (R43). -/
theorem regAt_eq_cmd_iff (offset : Nat) : regAt offset = some .cmd ↔ offset = 0 := by
  constructor
  · intro h
    unfold regAt at h
    split at h <;> simp_all
  · rintro rfl; rfl

/-- An access reaches CMD exactly when it is 32 bits wide and at offset 0x00 (R41, R43). -/
theorem regOfAccess_eq_cmd_iff (width offset : Nat) :
    regOfAccess width offset = some .cmd ↔ width = 32 ∧ offset = 0 := by
  simp only [regOfAccess, ← regAt_eq_cmd_iff]
  split <;> simp [*]

theorem runCommand_of_decode {w : Word} {i : Instr} (h : decode w = .ok i) (s : State) :
    runCommand w s = exec i s := by
  simp [runCommand, h]

/-- A write to CMD runs the word written. -/
theorem regWrite_cmd (w : Word) (s : State) :
    regWrite 32 0x00 w s = runCommand w (s.setReply .done) := rfl

theorem regWrite_effect {s t : State} {width offset : Nat} {v : Word}
    (h : regWrite width offset v s = .next t) : HostEffect s (.regWrite width offset v) t := by
  unfold regWrite at h
  split at h
  case h_1 => cases h; exact .answered _ _
  case h_2 hr =>
    obtain ⟨rfl, rfl⟩ := (regOfAccess_eq_cmd_iff _ _).1 hr
    cases hd : decode v with
    | error e => simp only [runCommand, hd] at h; cases h; exact .illegal _
    | ok i => exact .ran v i t hd (exec_effect (runCommand_of_decode hd _ ▸ h))
  case h_3 r _ _ => cases h; exact .wroteReg _ r v

theorem perform_effect {s t : State} {a : HostAction} (h : perform a s = .next t) :
    HostEffect s a t := by
  cases a with
  | regRead width offset => cases h; exact .answered _ _
  | regWrite width offset v => exact regWrite_effect h
  | memLoad addr n =>
    simp only [perform] at h
    split at h <;> cases h
    exact .answered _ _
  | memStore addr bytes =>
    simp only [perform] at h
    split at h <;> cases h
    exact .stored _ _
  | reset => cases h; exact .reset

/-- All a step can do: nothing, or the effect of the first pending action (R10, R12). -/
theorem step_effect {s t : State} (h : step s = .next t) :
    t = s ∨ ∃ a rest, s.queue = a :: rest ∧ HostEffect (s.setQueue rest) a t := by
  unfold step at h
  cases hq : s.queue with
  | nil => rw [hostStep_nil hq] at h; cases h; exact .inl rfl
  | cons a rest => exact .inr ⟨a, rest, rfl, perform_effect (hostStep_cons hq ▸ h)⟩

/-- An invariant of the registers is kept by every step when it survives a change of the model's own
fields, a host write of buffer memory or of a register, an illegal command word and reset, and is
kept by every command. -/
theorem step_preserves {p : State → Prop} {s t : State} (hs : p s) (h : step s = .next t)
    (hqueue : ∀ s q, p s → p (s.setQueue q)) (hreply : ∀ s r, p s → p (s.setReply r))
    (hmem : ∀ s m, p s → p (s.setMem m)) (hraise : ∀ s k, p s → p (s.raise k))
    (hreg : ∀ s r v, p s → p (s.writeReg r v)) (hreset : ∀ s : State, p s.resetRegisters)
    (hcommand : ∀ s i t, p s → CommandEffect s i t → p t) : p t := by
  obtain rfl | ⟨a, rest, -, he⟩ := step_effect h
  · exact hs
  have hs := hqueue s rest hs
  cases he with
  | answered _ r => exact hreply _ r hs
  | stored _ m => exact hreply _ _ (hmem _ m hs)
  | wroteReg _ r v => exact hreply _ _ (hreg _ r v hs)
  | ran w i t _ ht => exact hcommand _ i _ (hreply _ _ hs) ht
  | illegal => exact hraise _ _ (hreply _ _ hs)
  | reset => exact hreply _ _ (hreset _)

end Sys2Proof.Machine

/-! ## The AES sub-state -/

namespace Sys2Proof.Machine

/-! ### Host writes leave the AES sub-state -/

section
variable (s : State) (r : Reg) (v : Word)

@[simp] theorem State.writeReg_key : (s.writeReg r v).key = s.key := by cases r <;> rfl
@[simp] theorem State.writeReg_mode : (s.writeReg r v).mode = s.mode := by cases r <;> rfl
@[simp] theorem State.writeReg_ctr : (s.writeReg r v).ctr = s.ctr := by cases r <;> rfl
@[simp] theorem State.writeReg_iv : (s.writeReg r v).iv = s.iv := by cases r <;> rfl
@[simp] theorem State.writeReg_backed : (s.writeReg r v).backed = s.backed := by cases r <;> rfl
@[simp] theorem State.writeReg_queue : (s.writeReg r v).queue = s.queue := by cases r <;> rfl

end

/-! ### The invariant (R17, R250) -/

/-- The invariant speaks of KEY, MODE, CTR and IV only. -/
theorem State.AesInv.congr {s t : State} (hs : s.AesInv) (hkey : t.key = s.key)
    (hmode : t.mode = s.mode) (hctr : t.ctr = s.ctr) (hiv : t.iv = s.iv) : t.AesInv where
  fresh h := by rw [hkey]; exact hs.fresh (hmode ▸ h)
  ctrUnused h := by rw [hctr]; exact hs.ctrUnused (hmode ▸ h)
  ivUnused h h' := by rw [hiv]; exact hs.ivUnused (hmode ▸ h) (hmode ▸ h')

/-- An AES sub-state that is all zero meets the invariant. -/
theorem State.AesInv.of_zero {s : State} (hkey : s.key = Block.zeros) (hctr : s.ctr = Block.zeros)
    (hiv : s.iv = Block.zeros) : s.AesInv :=
  ⟨fun _ => hkey, fun _ => hctr, fun _ _ => hiv⟩

/-- While no engine is initialised, CTR and IV are zero. -/
theorem State.AesInv.unused_of_mode_none {s : State} (hs : s.AesInv) (hm : s.mode = .none) :
    s.ctr = Block.zeros ∧ s.iv = Block.zeros :=
  ⟨hs.ctrUnused (by simp [hm]), hs.ivUnused (by simp [hm]) (by simp [hm])⟩

theorem resetRegisters_aesInv (s : State) : s.resetRegisters.AesInv := .of_zero rfl rfl rfl

/-- Every command keeps the invariant: an init starts from zero registers and sets only its engine's,
and a command that moves CTR or IV runs in the MODE that owns it. -/
theorem CommandEffect.aesInv {s t : State} {i : Instr} (h : CommandEffect s i t) (hs : s.AesInv) :
    t.AesInv := by
  cases h with
  | raised k => exact hs.congr rfl rfl rfl rfl
  | initEcb m hi hm hecb =>
    obtain ⟨hctr, hiv⟩ := hs.unused_of_mode_none hm
    obtain rfl | rfl := hecb <;> exact ⟨nofun, fun _ => hctr, fun _ _ => hiv⟩
  | initCtr hi hm => exact ⟨nofun, fun h => absurd rfl h, fun _ _ => (hs.unused_of_mode_none hm).2⟩
  | initCbc m hi hm hcbc =>
    have hctr := (hs.unused_of_mode_none hm).1
    obtain rfl | rfl := hcbc
    · exact ⟨nofun, fun _ => hctr, fun h _ => absurd rfl h⟩
    · exact ⟨nofun, fun _ => hctr, fun _ h => absurd rfl h⟩
  | wroteMem m => exact hs.congr rfl rfl rfl rfl
  | movedCtr m c hm =>
    exact ⟨hs.fresh, fun h => absurd hm h, hs.ivUnused⟩
  | movedIv m v hm =>
    exact ⟨hs.fresh, hs.ctrUnused, fun henc hdec => absurd hm (not_or.2 ⟨henc, hdec⟩)⟩
  | acceptedKey => exact hs.congr rfl rfl rfl rfl
  | rejectedKey => exact hs.congr rfl rfl rfl rfl
  | releasedRsa m e => cases e <;> exact hs.congr rfl rfl rfl rfl
  | derivedCrt => exact hs.congr rfl rfl rfl rfl
  | releasedAes => exact .of_zero rfl rfl rfl

/-- Settles O57: the step lemma of the AES sub-state, from what one command and one host action can
do. -/
theorem stepKeepsAesInvariant : Obligations.StepKeepsAesInvariant := by
  intro s t hs h
  refine step_preserves hs h ?_ ?_ ?_ ?_ ?_ resetRegisters_aesInv fun _ _ _ hs he => he.aesInv hs
  · exact fun _ _ hs => hs.congr rfl rfl rfl rfl
  · exact fun _ _ hs => hs.congr rfl rfl rfl rfl
  · exact fun _ _ hs => hs.congr rfl rfl rfl rfl
  · exact fun _ _ hs => hs.congr rfl rfl rfl rfl
  · exact fun _ _ _ hs => hs.congr (by simp) (by simp) (by simp) (by simp)

/-! ### KEY (R13, R252) -/

/-- KEY is kept by every command but AES_RELEASE and an init command in MODE = NONE. -/
theorem CommandEffect.key_cases {s t : State} {i : Instr} (h : CommandEffect s i t) :
    t.key = s.key ∨ (i = .aesRelease ∧ t.key = Block.zeros) ∨
      (i ∈ aesInitCommands ∧ s.mode = .none ∧ t.key = s.keyin) := by
  cases h with
  | initEcb m hi hm => exact .inr (.inr ⟨hi, hm, rfl⟩)
  | initCtr hi hm => exact .inr (.inr ⟨hi, hm, rfl⟩)
  | initCbc m hi hm => exact .inr (.inr ⟨hi, hm, rfl⟩)
  | releasedAes hi => exact .inr (.inl ⟨hi, rfl⟩)
  | releasedRsa m e => cases e <;> exact .inl rfl
  | raised | wroteMem | movedCtr | movedIv | acceptedKey | rejectedKey | derivedCrt => exact .inl rfl

/-- Settles O17: every effect of a host action but reset and the commands named keeps KEY. -/
theorem keyChangesOnlyByInitReleaseOrReset : Obligations.KeyChangesOnlyByInitReleaseOrReset := by
  intro s t h hne
  obtain rfl | ⟨a, rest, hq, he⟩ := step_effect h
  · exact absurd rfl hne
  cases he with
  | answered => exact absurd rfl hne
  | stored => exact absurd rfl hne
  | wroteReg => exact absurd (by simp) hne
  | illegal => exact absurd rfl hne
  | reset => exact .inl ⟨rest, hq, rfl⟩
  | ran w i _ hd ht =>
    obtain hkey | hcause := ht.key_cases
    · exact absurd hkey hne
    · exact .inr ⟨w, rest, i, hq, hd, hcause⟩

end Sys2Proof.Machine

/-! ## The RSA sub-state -/

namespace Sys2Proof

/-! ### The modular inverse is an inverse (R188) -/

/-- The extended Euclidean loop keeps `r ≡ t · a (mod m)` for both of its pairs, so its result has
it. -/
theorem euclid_modEq (a m : Int) (fuel r0 r1 : Nat) (t0 t1 : Int) (h0 : (r0 : Int) ≡ t0 * a [ZMOD m])
    (h1 : (r1 : Int) ≡ t1 * a [ZMOD m]) :
    ((euclid fuel r0 r1 t0 t1).1 : Int) ≡ (euclid fuel r0 r1 t0 t1).2 * a [ZMOD m] := by
  induction fuel generalizing r0 r1 t0 t1 with
  | zero => exact h0
  | succ fuel ih =>
    rw [euclid]
    split
    · exact h0
    · refine ih _ _ _ _ h1 ?_
      rw [Nat.cast_sub (Nat.div_mul_le_self r0 r1), Nat.cast_mul, sub_mul, mul_assoc]
      exact h0.sub (h1.mul_left _)

/-- R188: where `ModInv(a, m)` is defined it is below `m` and inverse to `a`. -/
theorem modInv_spec {a m x : Nat} (h : modInv a m = some x) : x < m ∧ x * a ≡ 1 [MOD m] := by
  simp only [modInv] at h
  split at h
  · cases h
  split at h
  case isTrue => cases h
  case isFalse hm hr =>
    obtain rfl := Option.some.inj h
    have hpos : (0 : Int) < m := by omega
    have hx := Int.toNat_of_nonneg
      (Int.emod_nonneg (euclid (m + 1) m (a % m) 0 1).2 hpos.ne')
    have hlt := Int.emod_lt_of_pos (euclid (m + 1) m (a % m) 0 1).2 hpos
    refine ⟨by omega, ?_⟩
    have he := euclid_modEq a m (m + 1) m (a % m) 0 1 (by simp [Int.modEq_iff_dvd])
      (by simpa using Int.mod_modEq a m)
    rw [not_not.1 hr] at he
    rw [← Int.natCast_modEq_iff, Nat.cast_mul, hx]
    exact ((Int.mod_modEq _ _).mul_right _).trans he.symm

/-- A remainder of 1 is a congruence to 1, whatever the modulus. -/
theorem modEq_one_of_mod_eq_one {x m : Nat} (h : x % m = 1) : x ≡ 1 [MOD m] := by
  have := Nat.mod_mod x m
  rw [h] at this
  rw [Nat.ModEq, h, this]

/-- A number of `b + 1` bits is at least `2^b`. -/
theorem two_pow_le_of_bitlen {n b : Nat} (h : bitlen n = b + 1) : 2 ^ b ≤ n := by
  simp only [bitlen] at h
  split at h
  · omega
  · exact (Nat.le_log2 ‹_›).1 (by omega)

end Sys2Proof

namespace Sys2Proof.Machine

/-! ### What a key record that parses holds (R211, R212) -/

/-- The registers are wide enough for what a record yields. -/
structure KeyRecord.Fits (r : KeyRecord) : Prop where
  n : r.n < 2 ^ 2048
  e : r.e < 2 ^ 64
  d : r.d < 2 ^ 2048
  p : r.p < 2 ^ 1024
  q : r.q < 2 ^ 1024
  dp : r.dp < 2 ^ 1024
  dq : r.dq < 2 ^ 1024
  qp : r.qp < 2 ^ 1024

/-- The integer in a slot is bounded by the length of its field. -/
theorem slotValue_lt (rec : Bytes) (off : Nat) {n w : Nat} (h : 8 * n ≤ w) :
    slotValue rec off n < 2 ^ w := by
  have hlen : (slice rec off (off + n)).length ≤ n := by simp only [slice_length]; omega
  calc slotValue rec off n < 256 ^ (slice rec off (off + n)).length := be_lt _
    _ = 2 ^ (8 * (slice rec off (off + n)).length) := by rw [Nat.pow_mul]
    _ ≤ 2 ^ w := Nat.pow_le_pow_right (by norm_num) (by omega)

theorem parseKeyRecord_fits {rec : Bytes} {r : KeyRecord} (h : parseKeyRecord rec = some r) :
    r.Fits := by
  simp only [parseKeyRecord] at h
  split at h
  case isFalse => cases h
  case isTrue hw =>
    obtain rfl := Option.some.inj h
    simp only [recordWellFormed, Bool.and_eq_true, decide_eq_true_eq] at hw
    obtain ⟨⟨⟨⟨⟨⟨⟨⟨-, -⟩, he⟩, hd⟩, hp⟩, hq⟩, hdp⟩, hdq⟩, hqp⟩ := hw
    simp only [Config.elenMax, Config.dSlot, Config.primeSlot] at he hd hp hq hdp hdq hqp
    constructor <;> simp only [recordFields] <;> exact slotValue_lt _ _ (by omega)

/-! ### What the two key checks say (R214, R215) -/

theorem publicCheck_iff (n e : Nat) :
    publicCheck n e = true ↔ bitlen n = 2048 ∧ n % 2 = 1 ∧ e % 2 = 1 ∧ 3 ≤ e := by
  simp [publicCheck, Config.modulusBits, and_assoc]

/-- R215 on a record with D, P and Q. -/
structure KeyRecord.PrivateKey (r : KeyRecord) : Prop where
  primes : r.p * r.q = r.n
  exponent : r.d * r.e % lcmOf (r.p - 1) (r.q - 1) = 1

/-- R215 on a record with CRT values. -/
structure KeyRecord.CrtKey (r : KeyRecord) : Prop where
  dp : r.dp = r.d % (r.p - 1)
  dq : r.dq = r.d % (r.q - 1)
  qp : r.qp < r.p ∧ r.qp * r.q % r.p = 1

/-- What PrivateCheck has found when it passes. -/
theorem privateCheck_eq_some {r : KeyRecord} {priv crt : Bool}
    (h : privateCheck r = some (priv, crt)) :
    (crt = true → priv = true) ∧ (priv = true → r.PrivateKey) ∧ (crt = true → r.CrtKey) := by
  simp only [privateCheck] at h
  split at h
  · cases h; exact ⟨id, nofun, nofun⟩
  · simp only [Option.ite_none_left_eq_some, Bool.and_eq_true, Bool.or_eq_true, decide_eq_true_eq,
      not_and, not_or, not_not, not_le, Option.some.injEq, Prod.mk.injEq] at h
    obtain ⟨-, -, -, hpq, hde, hdp, hdq, hqp, rfl, rfl⟩ := h
    simp only [Bool.or_eq_true]
    exact ⟨fun _ => trivial, fun _ => ⟨hpq, hde⟩, fun hc => ⟨hdp hc, hdq hc, hqp hc⟩⟩

end Sys2Proof.Machine

namespace Sys2Proof.Machine

/-! ### The registers after a load -/

/-- A register that is wide enough holds the number put into it. -/
theorem toNat_ofNat_of_lt {w n : Nat} (h : n < 2 ^ w) : (BitVec.ofNat w n).toNat = n := by
  rw [BitVec.toNat_ofNat, Nat.mod_eq_of_lt h]

section
variable {r : KeyRecord} (hr : r.Fits) (s : State)
include hr

theorem State.loadFields_rsaN_toNat : (s.loadFields r).rsaN.toNat = r.n := toNat_ofNat_of_lt hr.n
theorem State.loadFields_rsaE_toNat : (s.loadFields r).rsaE.toNat = r.e := toNat_ofNat_of_lt hr.e
theorem State.loadFields_rsaD_toNat : (s.loadFields r).rsaD.toNat = r.d := toNat_ofNat_of_lt hr.d
theorem State.loadFields_rsaP_toNat : (s.loadFields r).rsaP.toNat = r.p := toNat_ofNat_of_lt hr.p
theorem State.loadFields_rsaQ_toNat : (s.loadFields r).rsaQ.toNat = r.q := toNat_ofNat_of_lt hr.q
theorem State.loadFields_rsaDP_toNat : (s.loadFields r).rsaDP.toNat = r.dp :=
  toNat_ofNat_of_lt hr.dp
theorem State.loadFields_rsaDQ_toNat : (s.loadFields r).rsaDQ.toNat = r.dq :=
  toNat_ofNat_of_lt hr.dq
theorem State.loadFields_rsaQP_toNat : (s.loadFields r).rsaQP.toNat = r.qp :=
  toNat_ofNat_of_lt hr.qp

end

/-! ### The invariant (R24, R26, R27) -/

/-- The invariant speaks of the RSA sub-state only. -/
theorem State.RsaInv.congr {s t : State} (hs : s.RsaInv) (h : t.withRsaOf s = t) : t.RsaInv := by
  rw [← h]
  exact {
    uninit := fun hu =>
      have hz := hs.uninit hu
      ⟨hz.n, hz.e, hz.d, hz.p, hz.q, hz.dp, hz.dq, hz.qp, hz.priv, hz.crt⟩
    crtPriv := hs.crtPriv
    privValid := hs.privValid
    validPublic := hs.validPublic
    privPrimes := hs.privPrimes
    privExponent := hs.privExponent
    crtDP := hs.crtDP
    crtDQ := hs.crtDQ
    crtQP := hs.crtQP }

theorem State.writeReg_withRsaOf (s : State) (r : Reg) (v : Word) :
    (s.writeReg r v).withRsaOf s = s.writeReg r v := by cases r <;> rfl

/-- With no valid key and no flag set, only the zeros of an empty sub-state are to be shown. -/
theorem State.RsaInv.of_not_valid {s : State} (huninit : s.rsast = .uninit → s.RsaZero)
    (hvalid : s.rsast ≠ .valid) (hpriv : s.hasPriv = false) (hcrt : s.hasCrt = false) :
    s.RsaInv where
  uninit := huninit
  crtPriv h := by simp [hcrt] at h
  privValid h := by simp [hpriv] at h
  validPublic h := absurd h hvalid
  privPrimes h := by simp [hpriv] at h
  privExponent h := by simp [hpriv] at h
  crtDP h := by simp [hcrt] at h
  crtDQ h := by simp [hcrt] at h
  crtQP h := by simp [hcrt] at h

/-- The invariant holds when no key is loaded. -/
theorem State.RsaZero.rsaInv {s : State} (hz : s.RsaZero) (hu : s.rsast = .uninit) : s.RsaInv :=
  .of_not_valid (fun _ => hz) (by simp [hu]) hz.priv hz.crt

theorem State.releaseRsa_rsaInv (s : State) : s.releaseRsa.RsaInv :=
  State.RsaZero.rsaInv ⟨rfl, rfl, rfl, rfl, rfl, rfl, rfl, rfl, rfl, rfl⟩ rfl

theorem resetRegisters_rsaInv (s : State) : s.resetRegisters.RsaInv :=
  State.RsaZero.rsaInv ⟨rfl, rfl, rfl, rfl, rfl, rfl, rfl, rfl, rfl, rfl⟩ rfl

/-- A key that passed both checks: what they found is what the invariant asks. -/
theorem acceptedKey_rsaInv {rec : Bytes} {r : KeyRecord} {priv crt : Bool}
    (hl : parseKeyRecord rec = some r) (hpub : publicCheck r.n r.e = true)
    (hpriv : privateCheck r = some (priv, crt)) (s : State) :
    ((s.loadFields r).setRsaStatus .valid priv crt).RsaInv := by
  have hr := parseKeyRecord_fits hl
  obtain ⟨hcp, hkey, hcrt⟩ := privateCheck_eq_some hpriv
  constructor <;>
    simp only [State.setRsaStatus_rsast, State.setRsaStatus_hasPriv, State.setRsaStatus_hasCrt,
      State.setRsaStatus_rsaN, State.setRsaStatus_rsaE, State.setRsaStatus_rsaD,
      State.setRsaStatus_rsaP, State.setRsaStatus_rsaQ, State.setRsaStatus_rsaDP,
      State.setRsaStatus_rsaDQ, State.setRsaStatus_rsaQP, State.loadFields_rsaN_toNat hr,
      State.loadFields_rsaE_toNat hr, State.loadFields_rsaD_toNat hr, State.loadFields_rsaP_toNat hr,
      State.loadFields_rsaQ_toNat hr, State.loadFields_rsaDP_toNat hr,
      State.loadFields_rsaDQ_toNat hr, State.loadFields_rsaQP_toNat hr]
  case uninit => exact nofun
  case crtPriv => exact hcp
  case privValid => exact fun _ => trivial
  case validPublic => exact fun _ => (publicCheck_iff _ _).1 hpub
  case privPrimes => exact fun h => (hkey h).primes.symm
  case privExponent => exact fun h => modEq_one_of_mod_eq_one (hkey h).exponent
  case crtDP => exact fun h => (hcrt h).dp
  case crtDQ => exact fun h => (hcrt h).dq
  case crtQP => exact fun h => ⟨(hcrt h).qp.1, modEq_one_of_mod_eq_one (hcrt h).qp.2⟩

theorem rejectedKey_rsaInv (s : State) (r : KeyRecord) :
    ((s.loadFields r).setRsaStatus .invalid false false).RsaInv :=
  .of_not_valid nofun nofun rfl rfl

/-- A factor of a number of more bits than the other factor has is at least 2. -/
theorem two_le_of_pow_le_mul {a b p q : Nat} (hab : a ≤ b) (hq : q < 2 ^ a) (h : 2 ^ b ≤ p * q) :
    2 ≤ p := by
  by_contra hp
  have h1 : p * q ≤ 1 * q := Nat.mul_le_mul_right q (by omega)
  have h2 : 2 ^ a ≤ 2 ^ b := Nat.pow_le_pow_right (by norm_num) hab
  omega

/-- The primes of a loaded key are at least 2: each register is too narrow for N alone. -/
theorem State.RsaInv.two_le_primes {s : State} (hs : s.RsaInv) (hp : s.hasPriv = true) :
    2 ≤ s.rsaP.toNat ∧ 2 ≤ s.rsaQ.toNat := by
  have hN : 2 ^ 2047 ≤ s.rsaP.toNat * s.rsaQ.toNat := by
    rw [← hs.privPrimes hp]
    exact two_pow_le_of_bitlen (hs.validPublic (hs.privValid hp)).1
  exact ⟨two_le_of_pow_le_mul (a := 1024) (by norm_num) s.rsaQ.isLt hN,
    two_le_of_pow_le_mul (a := 1024) (by norm_num) s.rsaP.isLt (Nat.mul_comm _ _ ▸ hN)⟩

/-- `D mod (X - 1)` fits the register of `X`. -/
theorem toNat_ofNat_mod_pred {w d : Nat} {x : BitVec w} (hx : 2 ≤ x.toNat) :
    (BitVec.ofNat w (d % (x.toNat - 1))).toNat = d % (x.toNat - 1) := by
  have h1 : d % (x.toNat - 1) < x.toNat - 1 := Nat.mod_lt _ (by omega)
  exact toNat_ofNat_of_lt (by have := x.isLt; omega)

/-- The values RSA_DERIVE computes are the ones the invariant asks (R221). -/
theorem derivedCrt_rsaInv {s : State} {qp : Nat} (hs : s.RsaInv) (hp : s.hasPriv = true)
    (hq : modInv s.rsaQ.toNat s.rsaP.toNat = some qp) :
    (s.setCrt (s.rsaD.toNat % (s.rsaP.toNat - 1)) (s.rsaD.toNat % (s.rsaQ.toNat - 1)) qp).RsaInv := by
  have hv := hs.privValid hp
  obtain ⟨hP, hQ⟩ := hs.two_le_primes hp
  obtain ⟨hlt, hinv⟩ := modInv_spec hq
  have hfits : qp < 2 ^ 1024 := hlt.trans s.rsaP.isLt
  have hqp : (BitVec.ofNat 1024 qp).toNat = qp := toNat_ofNat_of_lt hfits
  exact {
    uninit := fun hu => by simp [hv] at hu
    crtPriv := fun _ => hp
    privValid := hs.privValid
    validPublic := hs.validPublic
    privPrimes := hs.privPrimes
    privExponent := hs.privExponent
    crtDP := fun _ => toNat_ofNat_mod_pred hP
    crtDQ := fun _ => toNat_ofNat_mod_pred hQ
    crtQP := fun _ => by
      rw [State.setCrt_rsaQP, hqp]
      exact ⟨hlt, hinv⟩ }

theorem CommandEffect.rsaInv {s t : State} {i : Instr} (h : CommandEffect s i t) (hs : s.RsaInv) :
    t.RsaInv := by
  cases h with
  | acceptedKey rec r priv crt hl hpub hpriv =>
    exact (acceptedKey_rsaInv hl hpub hpriv s).congr rfl
  | rejectedKey r => exact (rejectedKey_rsaInv s r).congr rfl
  | releasedRsa m e => cases e <;> exact s.releaseRsa_rsaInv.congr rfl
  | derivedCrt m qp hv hp hq => exact (derivedCrt_rsaInv hs hp hq).congr rfl
  | raised | initEcb | initCtr | initCbc | wroteMem | movedCtr | movedIv | releasedAes =>
    exact hs.congr rfl

/-- Settles O58: the step lemma of the RSA sub-state, from what one command and one host action can
do. -/
theorem stepKeepsRsaInvariant : Obligations.StepKeepsRsaInvariant := by
  intro s t hs h
  refine step_preserves hs h ?_ ?_ ?_ ?_ ?_ resetRegisters_rsaInv fun _ _ _ hs he => he.rsaInv hs
  · exact fun _ _ hs => hs.congr rfl
  · exact fun _ _ hs => hs.congr rfl
  · exact fun _ _ hs => hs.congr rfl
  · exact fun _ _ hs => hs.congr rfl
  · exact fun s r v hs => hs.congr (s.writeReg_withRsaOf r v)

end Sys2Proof.Machine

/-! ## Frame of the commands, and when a step stops -/

namespace Sys2Proof.Machine

/-- The fields no command writes: the pointers (R20), and the model's own. -/
theorem CommandEffect.frame {s t : State} {i : Instr} (h : CommandEffect s i t) :
    t.src = s.src ∧ t.dst = s.dst ∧ t.len = s.len ∧ t.keyptr = s.keyptr ∧ t.aux = s.aux ∧
      t.backed = s.backed ∧ t.queue = s.queue ∧ t.reply = s.reply := by
  cases h with
  | releasedRsa m e => cases e <;> simp
  | raised | initEcb | initCtr | initCbc | wroteMem | movedCtr | movedIv | acceptedKey | rejectedKey
  | derivedCrt | releasedAes => simp

/-- Settles O16, from the frame that every effect of a command has. -/
theorem commandsKeepThePointers : Obligations.CommandsKeepThePointers :=
  fun _ _ _ h => (exec_effect h).frame

/-- No action of the host changes the list of what it does next, or the platform. -/
theorem HostEffect.frame {s t : State} {a : HostAction} (h : HostEffect s a t) :
    t.queue = s.queue ∧ t.backed = s.backed := by
  cases h with
  | answered | stored | wroteReg | illegal | reset => simp
  | ran w i _ _ ht =>
    obtain ⟨-, -, -, -, -, hbacked, hqueue, -⟩ := ht.frame
    exact ⟨hqueue, hbacked⟩

/-! ### When an action of the host is answered -/

theorem perform_memLoad {s : State} {addr n : Nat} (h : rangeOK s.backed addr n = true) :
    perform (.memLoad addr n) s = .next (s.setReply (.bytes (s.mem.readBytes addr n))) := by
  simp [perform, h]

theorem perform_memStore {s : State} {addr : Nat} {bytes : Bytes}
    (h : rangeOK s.backed addr bytes.length = true) :
    perform (.memStore addr bytes) s =
      .next ((s.setMem (s.mem.writeBytes addr bytes)).setReply .done) := by
  simp [perform, h]

/-- An action within the platform reaches a next state. -/
theorem perform_next {s : State} {a : HostAction} (h : a.withinPlatform s.backed = true) :
    ∃ t, perform a s = .next t := by
  cases a with
  | regRead width offset => exact ⟨_, rfl⟩
  | regWrite width offset v => exact regWrite_next width offset v s
  | memLoad addr n => exact ⟨_, perform_memLoad h⟩
  | memStore addr bytes => exact ⟨_, perform_memStore h⟩
  | reset => exact ⟨_, rfl⟩

/-- An action outside the platform is the one fault. -/
theorem perform_fault {s : State} {a : HostAction} (h : a.withinPlatform s.backed = false) :
    perform a s = .fault .hostRangeUnbacked := by
  cases a with
  | memLoad addr n => simp_all [perform, HostAction.withinPlatform]
  | memStore addr bytes => simp_all [perform, HostAction.withinPlatform]
  | regRead | regWrite | reset => cases h

theorem step_cons {s : State} {a : HostAction} {rest : List HostAction} (h : s.queue = a :: rest) :
    step s = perform a (s.setQueue rest) := hostStep_cons h

theorem readBytes_getD (m : Memory) (a : Nat) {n i : Nat} (h : i < n) :
    (m.readBytes a n).getD i 0 = m.read (a + i) := by
  have hi : i < (m.readBytes a n).length := by simpa using h
  rw [List.getD_eq_getElem _ _ hi, Memory.readBytes_getElem]

/-- Settles O54: whether a step stops is decided by the platform alone; what loads, stores and block
accesses do are the laws of buffer memory. -/
theorem stepsStopOnlyOnUnbackedHostAccess : Obligations.StepsStopOnlyOnUnbackedHostAccess := by
  refine ⟨fun s => ⟨hostStep_nil, fun a rest hq => ⟨fun hin => ?_, fun hout => ?_, ?_, ?_⟩⟩,
    fun m a => ⟨fun n => ⟨m.readBytes_length a n, fun i hi => readBytes_getD m a hi⟩,
      fun i hi => m.readBlock_get a hi, fun b => ⟨fun i hi => ?_, m.read_writeBytes_outside a b⟩,
      fun b => ⟨fun i hi => ?_, fun c hc => ?_⟩⟩⟩
  · obtain ⟨t, ht⟩ := perform_next (s := s.setQueue rest) hin
    obtain ⟨hqueue, hbacked⟩ := (perform_effect ht).frame
    exact ⟨t, (step_cons hq).trans ht, hqueue, hbacked⟩
  · exact (step_cons hq).trans (perform_fault hout)
  · rintro addr n rfl hr
    exact (step_cons hq).trans (perform_memLoad hr)
  · rintro addr bytes rfl hr
    exact ⟨_, (step_cons hq).trans (perform_memStore hr), s.mem.readBytes_writeBytes addr bytes,
      s.mem.read_writeBytes_outside addr bytes⟩
  · rw [Memory.read_writeBytes, if_pos (by omega), Nat.add_sub_cancel_left]
  · rw [Memory.read_writeBlock, if_pos (by omega), Nat.add_sub_cancel_left]
  · rw [Memory.read_writeBlock, if_neg (by omega)]

end Sys2Proof.Machine

/-! ## The command word of a step -/

namespace Sys2Proof

/-! ### The fields of an encoded command (R70) -/

theorem opcodeOf_lt (i : Instr) : opcodeOf i < 256 := by
  cases i <;> simp [opcodeOf]

theorem imm8Of_lt {i : Instr} (h : i.wellFormed = true) : imm8Of i < 256 := by
  cases i with
  | ctrAdd imm => simpa [Instr.wellFormed, imm8Of] using h
  | _ => simp [imm8Of]

theorem encode_toNat {i : Instr} (h : i.wellFormed = true) :
    (encode i).toNat = opcodeOf i + 256 * (ksOf i).toNat + 65536 * imm8Of i := by
  have hop := opcodeOf_lt i
  have himm := imm8Of_lt h
  have hks := (ksOf i).toNat_le
  exact Nat.mod_eq_of_lt (by omega)

section
variable {i : Instr} (h : i.wellFormed = true)
include h

theorem fieldOpcode_encode : fieldOpcode (encode i) = opcodeOf i := by
  have hop := opcodeOf_lt i
  rw [fieldOpcode, encode_toNat h]
  omega

theorem fieldImm8_encode : fieldImm8 (encode i) = imm8Of i := by
  have hop := opcodeOf_lt i
  have himm := imm8Of_lt h
  have hks := (ksOf i).toNat_le
  rw [fieldImm8, encode_toNat h]
  omega

theorem fieldKs_encode : fieldKs (encode i) = ksOf i := by
  have hop := opcodeOf_lt i
  have hbit : (encode i).toNat / 256 % 2 = (ksOf i).toNat := by
    have hks := (ksOf i).toNat_le
    rw [encode_toNat h]
    omega
  rw [fieldKs, hbit]
  cases ksOf i <;> rfl

theorem fieldRsv_encode : fieldRsv3 (encode i) = 0 ∧ fieldRsv1 (encode i) = 0 := by
  have hop := opcodeOf_lt i
  have himm := imm8Of_lt h
  have hks := (ksOf i).toNat_le
  rw [fieldRsv3, fieldRsv1, encode_toNat h]
  omega

end

/-- The opcode map gives a command back from its own fields (R71). -/
theorem commandOf_fields (i : Instr) : commandOf (opcodeOf i) (imm8Of i) (ksOf i) = some i := by
  cases i <;> rfl

/-- Only CTR_ADD has an immediate (R72). -/
theorem imm8Of_eq_zero {i : Instr} (h : opcodeOf i ≠ 0x32) : imm8Of i = 0 := by
  cases i with
  | ctrAdd imm => exact absurd rfl h
  | _ => rfl

/-- Only CTR_BLOCK and CTR_STREAM have the flag KS (R73). -/
theorem ksOf_eq_false {i : Instr} (h : opcodeOf i ≠ 0x33) (h' : opcodeOf i ≠ 0x34) :
    ksOf i = false := by
  cases i with
  | ctrBlock ks => exact absurd rfl h
  | ctrStream ks => exact absurd rfl h'
  | _ => rfl

/-- The word of a well-formed command decodes to the command: every test of R75 passes on it. -/
theorem decode_encode {i : Instr} (h : i.wellFormed = true) : decode (encode i) = .ok i := by
  have himm : ¬(imm8Of i ≠ 0 ∧ opcodeOf i ≠ 0x32) := fun ⟨hne, hop⟩ => hne (imm8Of_eq_zero hop)
  have hks : ¬(ksOf i = true ∧ opcodeOf i ≠ 0x33 ∧ opcodeOf i ≠ 0x34) := fun ⟨hne, hop, hop'⟩ => by
    simp [ksOf_eq_false hop hop'] at hne
  obtain ⟨hrsv3, hrsv1⟩ := fieldRsv_encode h
  simp only [decode, fieldOpcode_encode h, fieldImm8_encode h, fieldKs_encode h, hrsv3, hrsv1,
    commandOf_fields, if_neg himm, if_neg hks]
  simp

end Sys2Proof

namespace Sys2Proof.Machine

/-- The host's write of a command word is the 32-bit write of that word to CMD (R21, R70). -/
theorem commandWrite_toNat (w : Word) : commandWrite 32 w.toNat = .regWrite 32 0x00 w := by
  rw [commandWrite, Nat.mod_eq_of_lt w.isLt, BitVec.ofNat_toNat, BitVec.setWidth_eq]

/-- A pending write of a legal word to CMD is the execution of its command. -/
theorem step_of_commandWord {s : State} {w : Word} {rest : List HostAction} {i : Instr}
    (hq : s.queue = .regWrite 32 0x00 w :: rest) (hd : decode w = .ok i) :
    step s = exec i ((s.setQueue rest).setReply .done) := by
  rw [step_cons hq, perform, regWrite_cmd, runCommand_of_decode hd]

/-- Settles O5, for a well-formed command by way of its word. -/
theorem stepRunsTheDecodedCommand : Obligations.StepRunsTheDecodedCommand := by
  refine ⟨fun s a rest hq => step_cons hq, fun s w rest i hq hd => step_of_commandWord hq hd,
    fun s i hi => ?_⟩
  have hq : (s.withFetchWord 32 (encode i).toNat).queue = .regWrite 32 0x00 (encode i) :: s.queue := by
    rw [State.withFetchWord, commandWrite_toNat, State.setQueue_queue]
  exact step_of_commandWord hq (decode_encode hi)

/-! ## Status words and reset -/

/-! ### The fields of STATUS (R22) -/

theorem Mode.code_lt (m : Mode) : m.code < 6 := by cases m <;> decide

theorem RsaState.code_lt (r : RsaState) : r.code < 3 := by cases r <;> decide

/-- `n` bits of STATUS from bit `i` on, as a number. -/
theorem State.statusWord_field (s : State) (i n : Nat) :
    (s.statusWord.extractLsb' i n).toNat =
      (s.ok.toNat + 16 * s.mode.code + 256 * s.rsast.code) / 2 ^ i % 2 ^ n := by
  have hok := s.ok.toNat_le
  have hmode := s.mode.code_lt
  have hrsast := s.rsast.code_lt
  have hword : s.statusWord.toNat = s.ok.toNat + 16 * s.mode.code + 256 * s.rsast.code :=
    Nat.mod_eq_of_lt (by omega)
  rw [BitVec.extractLsb'_toNat, hword, Nat.shiftRight_eq_div_pow]

/-- A field of STATUS has the value `v` when the sum that STATUS is has it there. -/
theorem State.statusWord_field_eq {s : State} {i n v : Nat}
    (h : (s.ok.toNat + 16 * s.mode.code + 256 * s.rsast.code) / 2 ^ i % 2 ^ n = v % 2 ^ n) :
    s.statusWord.extractLsb' i n = BitVec.ofNat n v := by
  apply BitVec.eq_of_toNat_eq
  rw [s.statusWord_field, BitVec.toNat_ofNat, h]

/-- Settles O9: each field is read off the sum; the codes are finite tables. -/
theorem statusAndErrLayout : Obligations.StatusAndErrLayout := by
  intro s
  have hok := s.ok.toNat_le
  have hmode := s.mode.code_lt
  have hrsast := s.rsast.code_lt
  refine ⟨?ok, State.statusWord_field_eq (v := 0) (by omega),
    State.statusWord_field_eq (v := 0) (by omega), State.statusWord_field_eq (v := 0) (by omega),
    ?mode, ?rsast, ?err⟩
  case ok =>
    have hbit : s.statusWord.extractLsb' 0 1 = BitVec.ofNat 1 s.ok.toNat :=
      State.statusWord_field_eq (by omega)
    have h0 := congrArg (·.getLsbD 0) hbit
    cases hs : s.ok <;> simpa [hs] using h0
  case mode =>
    intro p hp hm
    rw [State.statusWord_field_eq (v := s.mode.code) (by omega), hm]
    clear hm
    revert p
    decide
  case rsast =>
    intro p hp hr
    rw [State.statusWord_field_eq (v := s.rsast.code) (by omega), hr]
    clear hr
    revert p
    decide
  case err =>
    intro p hp he
    rw [State.errWord, he]
    clear he
    revert p
    decide

/-- Settles O10: the two releases reach what reset does, one field after another. -/
theorem resetPutsEveryRegisterAtItsValue : Obligations.ResetPutsEveryRegisterAtItsValue :=
  fun s => ⟨rfl, s.releaseAes.finish, rfl, rfl⟩

/-- Settles O55: after reset both sub-states are zero and no byte of memory is listed. -/
theorem resetMeetsTheInvariants : Obligations.ResetMeetsTheInvariants :=
  ⟨⟨reset_mem_wf, rfl⟩, resetRegisters_aesInv State.reset, resetRegisters_rsaInv State.reset⟩

end Sys2Proof.Machine

/-! ## The walk over blocks, in place and on disjoint buffers -/

namespace Sys2Proof.Machine

/-- A block that lies outside the bytes that differ reads the same. -/
theorem readBlock_of_sameOutside {a n b : Nat} {m m' : Memory} (h : sameOutside a n m m')
    (hb : b + 16 ≤ a ∨ a + n ≤ b) : m'.readBlock b = m.readBlock b :=
  Block.ext_get fun i hi => by
    rw [Memory.readBlock_get _ _ hi, Memory.readBlock_get _ _ hi, h (b + i) (by omega)]

section
variable {σ : Type} (f : σ → Block → Block × σ) (src dst n : Nat) (m : Memory) (x : σ)

/-- The value the engine carries into block `k`, when every input block is the one `m` holds. -/
def carryAt (f : σ → Block → Block × σ) (src : Nat) (m : Memory) (x : σ) : Nat → σ
  | 0 => x
  | k + 1 => (f (carryAt f src m x k) (m.readBlock (src + 16 * k))).2

/-- The blocks before block `k` leave its input as it was (R57). -/
theorem readBlock_walkBlocks_ahead {α : Type} (fetch : Memory → Nat → α) (g : σ → α → Block × σ)
    {k : Nat} (hk : k < n) (hbuf : sameOrDisjoint src dst (16 * n)) :
    (walkBlocks fetch g dst k 0 m x).1.readBlock (src + 16 * k) = m.readBlock (src + 16 * k) := by
  refine readBlock_of_sameOutside (walkBlocks_frame fetch g dst k 0 m x) ?_
  obtain h | h | h := hbuf <;> omega

/-- The blocks after block `k` leave its output as it was. -/
theorem readBlock_walkBlocks_behind {α : Type} (fetch : Memory → Nat → α) (g : σ → α → Block × σ)
    {k : Nat} (hk : k < n) :
    (walkBlocks fetch g dst n 0 m x).1.readBlock (dst + 16 * k) =
      (walkBlocks fetch g dst (k + 1) 0 m x).1.readBlock (dst + 16 * k) := by
  obtain ⟨j, rfl⟩ : ∃ j, n = k + 1 + j := ⟨n - (k + 1), by omega⟩
  rw [walkBlocks_add]
  exact readBlock_of_sameOutside (walkBlocks_frame fetch g dst j _ _ _) (by omega)

variable {src dst n} (hbuf : sameOrDisjoint src dst (16 * n))
include hbuf

/-- What a walk carries on does not depend on what it has written. -/
theorem walkBlocks_carry {k : Nat} (hk : k ≤ n) :
    (walkBlocks (fetchBlock src) f dst k 0 m x).2 = carryAt f src m x k := by
  induction k with
  | zero => rfl
  | succ k ih =>
    rw [walkBlocks_succ]
    simp only [fetchBlock, Nat.zero_add, carryAt]
    rw [readBlock_walkBlocks_ahead src dst n m x _ _ (by omega) hbuf, ih (by omega)]

/-- Every output block of a walk, from the memory and the value it began with. -/
theorem walkBlocks_output {k : Nat} (hk : k < n) :
    (walkBlocks (fetchBlock src) f dst n 0 m x).1.readBlock (dst + 16 * k) =
      (f (carryAt f src m x k) (m.readBlock (src + 16 * k))).1 := by
  rw [readBlock_walkBlocks_behind dst n m x _ _ hk, walkBlocks_succ]
  simp only [fetchBlock, Nat.zero_add]
  rw [Memory.readBlock_writeBlock, readBlock_walkBlocks_ahead src dst n m x _ _ hk hbuf,
    walkBlocks_carry f m x hbuf hk.le]

end

/-! ### CBC (R163, R164) -/

theorem exec_cbcEnc (s : State) : exec .cbcEnc s = execCbcEnc s := rfl
theorem exec_cbcDec (s : State) : exec .cbcDec s = execCbcDec s := rfl

/-- The checks of a block command pass in its MODE, on whole blocks within backed memory. -/
theorem firstError_blockChecks {s : State} {m : Mode} (hm : m ≠ .none) (hmode : s.mode = m)
    (hlen : s.len.toNat % 16 = 0) (hsrc : rangeOK s.backed s.src.toNat s.len.toNat = true)
    (hdst : rangeOK s.backed s.dst.toNat s.len.toNat = true) :
    firstError (blockChecks m s) = none := by
  rw [blockChecks, (useCheck_eq_none_iff hm s).2 hmode, (sizeCheck_eq_none_iff s).2 hlen,
    (rangeCheck_eq_none_iff s _).2 (by simp [hsrc, hdst])]
  rfl

section
variable {s : State} (hlen : s.len.toNat % 16 = 0)
  (hsame : sameOrDisjoint s.src.toNat s.dst.toNat s.len.toNat)
include hlen hsame

/-- The output blocks and the final IV of a CBC body, in place or on disjoint buffers. -/
theorem cbcBody_blocks (f : Block → Block → Block × Block) :
    (∀ k < s.len.toNat / 16, (cbcBody f s).mem.readBlock (s.dst.toNat + 16 * k) =
      (f (carryAt f s.src.toNat s.mem s.iv k) (s.mem.readBlock (s.src.toNat + 16 * k))).1) ∧
    (cbcBody f s).iv = carryAt f s.src.toNat s.mem s.iv (s.len.toNat / 16) := by
  have hbuf : sameOrDisjoint s.src.toNat s.dst.toNat (16 * (s.len.toNat / 16)) := by
    rwa [Nat.mul_div_cancel' (Nat.dvd_of_mod_eq_zero hlen)]
  exact ⟨fun k hk => walkBlocks_output f s.mem s.iv hbuf hk,
    walkBlocks_carry f s.mem s.iv hbuf le_rfl⟩

/-- CBC_ENC carries each output block into the next (R163). -/
theorem carryAt_cbcEncStep {k : Nat} (hk : k ≤ s.len.toNat / 16) :
    carryAt (cbcEncStep s.key) s.src.toNat s.mem s.iv k =
      if k = 0 then s.iv
      else (cbcBody (cbcEncStep s.key) s).mem.readBlock (s.dst.toNat + 16 * (k - 1)) := by
  cases k with
  | zero => rfl
  | succ k => exact ((cbcBody_blocks hlen hsame (cbcEncStep s.key)).1 k (by omega)).symm

end

/-- CBC_DEC carries each input block into the next (R164). -/
theorem carryAt_cbcDecStep (key iv : Block) (src : Nat) (m : Memory) (k : Nat) :
    carryAt (cbcDecStep key) src m iv k =
      if k = 0 then iv else m.readBlock (src + 16 * (k - 1)) := by
  cases k <;> rfl

/-- Settles O37: the output blocks of the walk, with what each engine carries named. -/
theorem cbcInPlaceAndDisjointAgree : Obligations.CbcInPlaceAndDisjointAgree := by
  intro s hlen hsrc hdst hsame
  refine ⟨fun hmode => ⟨(cbcBody (cbcEncStep s.key) s).finish, ?_, rfl, ?_⟩,
    fun hmode => ⟨(cbcBody (cbcDecStep s.key) s).finish, ?_, rfl, ?_⟩⟩
  · exact (exec_cbcEnc s).trans <| State.command_of_checks <|
      firstError_blockChecks (by decide) hmode hlen hsrc hdst
  · obtain ⟨hout, hiv⟩ := cbcBody_blocks hlen hsame (cbcEncStep s.key)
    refine ⟨fun k hk => (hout k hk).trans ?_, hiv.trans (carryAt_cbcEncStep hlen hsame le_rfl)⟩
    rw [carryAt_cbcEncStep hlen hsame hk.le]
    rfl
  · exact (exec_cbcDec s).trans <| State.command_of_checks <|
      firstError_blockChecks (by decide) hmode hlen hsrc hdst
  · obtain ⟨hout, hiv⟩ := cbcBody_blocks hlen hsame (cbcDecStep s.key)
    refine ⟨fun k hk => (hout k hk).trans ?_, hiv.trans (carryAt_cbcDecStep _ _ _ _ _)⟩
    rw [carryAt_cbcDecStep]
    rfl

end Sys2Proof.Machine

/-! ## Buffer memory stays canonical and within the platform -/

namespace Sys2Proof.Machine

/-! ### The invariant and one write (R50, R51, R263) -/

/-- The invariant speaks of buffer memory and the platform only. -/
theorem State.MemInv.congr {s t : State} (hs : s.MemInv) (hmem : t.mem = s.mem)
    (hbacked : t.backed = s.backed) : t.MemInv where
  canonical := by rw [hmem]; exact hs.canonical
  within := by rw [hmem, hbacked]; exact hs.within

/-- A write of `n` bytes to a range in order keeps the invariant. -/
theorem State.MemInv.setMem_writeBytes {s : State} (hs : s.MemInv) {a n : Nat} {v : Bytes}
    (hv : v.length = n) (hr : rangeOK s.backed a n = true) :
    (s.setMem (s.mem.writeBytes a v)).MemInv where
  canonical := Memory.wf_writeBytes hs.canonical a v
  within := Memory.within_writeBytes hs.within (hv ▸ hr)

/-- A walk over `n` blocks keeps the invariant when its output range is in order. -/
theorem State.MemInv.setMem_walkBlocks {σ α : Type} {s : State} (hs : s.MemInv)
    (fetch : Memory → Nat → α) (f : σ → α → Block × σ) {dst n : Nat} (x : σ)
    (hr : rangeOK s.backed dst (16 * n) = true) :
    (s.setMem (walkBlocks fetch f dst n 0 s.mem x).1).MemInv where
  canonical := walkBlocks_wf fetch f dst hs.canonical n 0 x
  within := walkBlocks_within fetch f dst hs.within n 0 x (by rwa [Nat.zero_add])

/-! ### The commands that write buffer memory -/

/-- A command whose range check passed touches ranges in order only. -/
theorem rangeOK_of_checks {s : State} {cs : List (Option ErrorKind)} {rs : List (Nat × Nat)}
    {r : Nat × Nat} (h : firstError cs = none) (hc : rangeCheck s rs ∈ cs) (hr : r ∈ rs) :
    rangeOK s.backed r.1 r.2 = true :=
  (rangeCheck_eq_none_iff s rs).1 ((firstError_eq_none_iff cs).1 h _ hc) r hr

/-- The whole blocks of a range in order are in order. -/
theorem rangeOK_blocks {backed : List Region} {a n : Nat} (h : rangeOK backed a n = true) :
    rangeOK backed a (16 * (n / 16)) = true :=
  rangeOK_sub (i := 0) h (by omega)

theorem sha256_length (m : Bytes) : (sha256 m).length = 32 := by
  simp [sha256, HashValue.toBytes]

theorem State.publicTransform_length (s : State) (a : Nat) : (s.publicTransform a).length = 256 :=
  bytesN_length 256 _

section
variable {s : State} (hs : s.MemInv)
include hs

theorem ecbBody_memInv (cipher : Block → Block)
    (hr : rangeOK s.backed s.dst.toNat s.len.toNat = true) : (ecbBody cipher s).MemInv :=
  hs.setMem_walkBlocks _ _ _ (rangeOK_blocks hr)

theorem cbcBody_memInv (f : Block → Block → Block × Block)
    (hr : rangeOK s.backed s.dst.toNat s.len.toNat = true) : (cbcBody f s).MemInv :=
  (hs.setMem_walkBlocks _ f s.iv (rangeOK_blocks hr)).congr rfl rfl

theorem ctrBlocks_memInv (ks : Bool) (n : Nat) (c : Block)
    (hr : rangeOK s.backed s.dst.toNat (16 * n) = true) :
    ((s.setMem (ctrBlocks ks n s).1).setCtr c).MemInv :=
  (hs.setMem_walkBlocks _ _ _ hr).congr rfl rfl

/-- The tail of CTR_STREAM writes at most `r` bytes (R146). -/
theorem ctrTail_memInv (ks : Bool) (off r : Nat)
    (hr : rangeOK s.backed (s.dst.toNat + off) r = true) : (ctrTail ks off r s).MemInv := by
  refine (hs.setMem_writeBytes rfl (rangeOK_sub (i := 0) hr ?_)).congr rfl rfl
  cases ks <;> simp [xorBytes_length]

theorem ctrStreamBody_memInv (ks : Bool) (hr : rangeOK s.backed s.dst.toNat s.len.toNat = true) :
    (ctrStreamBody ks s).MemInv := by
  have hblocks := ctrBlocks_memInv hs ks _ (ctrBlocks ks (s.len.toNat / 16) s).2 (rangeOK_blocks hr)
  unfold ctrStreamBody
  simp only
  split
  · exact ctrTail_memInv hblocks ks _ _ (rangeOK_sub hr (by omega))
  · exact hblocks

/-- A command keeps the invariant when its body does: its end writes no memory. -/
theorem State.command_memInv {t : State} {cs : List (Option ErrorKind)}
    {body : State → State × Option ErrorKind} (h : s.command cs body = .next t)
    (hbody : firstError cs = none → (body s).1.MemInv) : t.MemInv := by
  obtain ⟨k, -, rfl⟩ | ⟨hc, rfl⟩ := State.command_cases h
  · exact hs.congr rfl rfl
  · cases (body s).2 <;> exact (hbody hc).congr rfl rfl

/-- A load of a key writes registers only (45_rsa.md R213). -/
theorem State.loadKey_memInv (a : Nat) : (s.loadKey a).1.MemInv := by
  obtain ⟨-, h⟩ | ⟨r, -, ⟨-, h⟩ | ⟨priv, crt, -, -, h⟩⟩ := s.loadKey_cases a <;>
    rw [h] <;> exact hs.congr rfl rfl

theorem execRsaVerify_memInv {t : State} (h : execRsaVerify s = .next t) : t.MemInv := by
  refine State.command_memInv hs h fun _ => ?_
  simp only [State.releaseRsa_loadKey]
  split <;> exact hs.congr rfl rfl

theorem execRsaRaw_memInv {t : State} (h : execRsaRaw s = .next t) : t.MemInv := by
  refine State.command_memInv hs h fun hc => ?_
  have hdst : rangeOK s.backed s.dst.toNat 256 = true :=
    rangeOK_of_checks (r := (s.dst.toNat, 256)) hc (.tail _ (.head _)) (by simp)
  simp only [State.releaseRsa_loadKey]
  split
  · exact hs.congr rfl rfl
  · exact (hs.setMem_writeBytes (State.publicTransform_length _ _) hdst).congr rfl rfl

theorem execRsaDerive_memInv {t : State} (h : execRsaDerive s = .next t) : t.MemInv := by
  refine State.command_memInv hs h fun hc => ?_
  have hdst : rangeOK s.backed s.dst.toNat 384 = true :=
    rangeOK_of_checks (r := (s.dst.toNat, 384)) hc (.tail _ (.head _)) (by simp)
  simp only [deriveBody]
  split
  · exact hs
  · exact (hs.setMem_writeBytes (by simp) hdst).congr rfl rfl

/-- Every command keeps the invariant: what it writes lies in a range it has checked (R263). -/
theorem exec_memInv {i : Instr} {t : State} (h : exec i s = .next t) : t.MemInv := by
  have blocksOK {m} (hc : firstError (blockChecks m s) = none) :
      rangeOK s.backed s.dst.toNat s.len.toNat = true :=
    rangeOK_of_checks (r := (s.dst.toNat, s.len.toNat)) hc (.tail _ (.tail _ (.head _))) (by simp)
  have ctrOK {c ks n} (hc : firstError [c, rangeCheck s (ctrRanges ks n s)] = none) :
      rangeOK s.backed s.dst.toNat n = true :=
    rangeOK_of_checks (r := (s.dst.toNat, n)) hc (.tail _ (.head _))
      (by cases ks <;> simp [ctrRanges])
  unfold exec at h
  cases i with
  | ecbEnc => exact State.command_memInv hs h fun hc => ecbBody_memInv hs _ (blocksOK hc)
  | ecbDec => exact State.command_memInv hs h fun hc => ecbBody_memInv hs _ (blocksOK hc)
  | cbcEnc => exact State.command_memInv hs h fun hc => cbcBody_memInv hs _ (blocksOK hc)
  | cbcDec => exact State.command_memInv hs h fun hc => cbcBody_memInv hs _ (blocksOK hc)
  | ctrBlock ks => exact State.command_memInv hs h fun hc => ctrBlocks_memInv hs ks 1 _ (ctrOK hc)
  | ctrStream ks => exact State.command_memInv hs h fun hc => ctrStreamBody_memInv hs ks (ctrOK hc)
  | sha256 =>
    refine State.command_memInv hs h fun hc => hs.setMem_writeBytes (sha256_length _) ?_
    exact rangeOK_of_checks (r := (s.dst.toNat, 32)) hc (.head _) (by simp)
  | rsaInit => exact State.command_memInv hs h fun _ => State.loadKey_memInv hs _
  | rsaVerify => exact execRsaVerify_memInv hs h
  | rsaRaw => exact execRsaRaw_memInv hs h
  | rsaDerive => exact execRsaDerive_memInv hs h
  | ecbInitEnc | ecbInitDec | ctrInit | ctrSet | ctrAdd | cbcInitEnc | cbcInitDec | aesRelease
  | rsaRelease => exact State.command_memInv hs h fun _ => hs.congr rfl rfl

/-! ### The host's actions -/

theorem runCommand_memInv {w : Word} {t : State} (h : runCommand w s = .next t) : t.MemInv := by
  cases hd : decode w with
  | error e => simp only [runCommand, hd] at h; cases h; exact hs.congr rfl rfl
  | ok i => exact exec_memInv hs (runCommand_of_decode hd s ▸ h)

theorem regWrite_memInv {width offset : Nat} {v : Word} {t : State}
    (h : regWrite width offset v s = .next t) : t.MemInv := by
  unfold regWrite at h
  split at h
  case h_1 => cases h; exact hs.congr rfl rfl
  case h_2 => exact runCommand_memInv (s := s.setReply .done) (hs.congr rfl rfl) h
  case h_3 r _ _ => cases h; exact hs.congr (by cases r <;> rfl) (by simp)

/-- Every action of the host keeps the invariant: a store is answered within the platform only. -/
theorem perform_memInv {a : HostAction} {t : State} (h : perform a s = .next t) : t.MemInv := by
  cases a with
  | regRead width offset => cases h; exact hs.congr rfl rfl
  | regWrite width offset v => exact regWrite_memInv hs h
  | memLoad addr n =>
    simp only [perform] at h
    split at h <;> cases h
    exact hs.congr rfl rfl
  | memStore addr bytes =>
    simp only [perform] at h
    split at h <;> cases h
    exact (hs.setMem_writeBytes rfl ‹_›).congr rfl rfl
  | reset => cases h; exact hs.congr rfl rfl

end

/-- Settles O56: the first pending action keeps the invariant, and taking it from the list does. -/
theorem stepKeepsMemoryInvariant : Obligations.StepKeepsMemoryInvariant := by
  intro s t hs h
  unfold step at h
  cases hq : s.queue with
  | nil => rw [hostStep_nil hq] at h; cases h; exact hs
  | cons a rest =>
    rw [hostStep_cons hq] at h
    exact perform_memInv (s := s.setQueue rest) (hs.congr rfl rfl) h

end Sys2Proof.Machine

/-! ## The register window -/

namespace Sys2Proof

/-! ### Words of a 16-byte register (R42) -/

/-- Word `j` of a block is spelt by its bytes `4j` to `4j + 3`. -/
theorem Block.slice_word (b : Block) {j : Nat} (hj : j < 4) :
    slice b.bytes (4 * j) (4 * j + 4) =
      [b.get (4 * j), b.get (4 * j + 1), b.get (4 * j + 2), b.get (4 * j + 3)] := by
  apply List.ext_getElem
  · simp; omega
  · intro i hi hi'
    have hi4 : i < 4 := by simpa using hi'
    simp only [slice, List.getElem_take, List.getElem_drop]
    rw [← b.get_eq (by omega)]
    interval_cases i <;> rfl

/-- R42, as the rule states it: the first byte is the most significant. -/
theorem Block.word_toNat (b : Block) {j : Nat} (hj : j < 4) :
    (b.word j).toNat = (b.get (4 * j)).toNat * 2 ^ 24 + (b.get (4 * j + 1)).toNat * 2 ^ 16 +
      (b.get (4 * j + 2)).toNat * 2 ^ 8 + (b.get (4 * j + 3)).toNat := by
  have hlt : be (slice b.bytes (4 * j) (4 * j + 4)) < 2 ^ 32 := by
    simpa [b.slice_word hj] using be_lt (slice b.bytes (4 * j) (4 * j + 4))
  rw [Block.word, BitVec.toNat_ofNat, Nat.mod_eq_of_lt hlt, b.slice_word hj]
  simp only [be_cons, be_nil, List.length_cons, List.length_nil]
  ring

/-- The integer of a block from its four words. -/
theorem Block.toNat_eq_words (b : Block) :
    b.toNat = (((b.word 0).toNat * 2 ^ 32 + (b.word 1).toNat) * 2 ^ 32 + (b.word 2).toNat) * 2 ^ 32 +
      (b.word 3).toNat := by
  have hbytes : b.bytes = (List.range 16).map b.get := congrArg Block.bytes b.build_get.symm
  simp only [b.word_toNat (show 0 < 4 by decide), b.word_toNat (show 1 < 4 by decide),
    b.word_toNat (show 2 < 4 by decide), b.word_toNat (show 3 < 4 by decide)]
  rw [Block.toNat, hbytes]
  simp only [be, List.range, List.range.loop, List.map, List.foldl]
  ring

/-- Appending puts the second word below the first. -/
theorem toNat_append_word {n : Nat} (x : BitVec n) (w : Word) :
    (x ++ w).toNat = x.toNat * 2 ^ 32 + w.toNat := by
  rw [BitVec.toNat_append, Nat.shiftLeft_eq, Nat.mul_comm, Nat.two_pow_add_eq_or_of_lt w.isLt]

/-! ### One word written (R44) -/

theorem Block.get_setWord (b : Block) (w : Word) {j k r : Nat} (hk : k < 4) (hr : r < 4) :
    (b.setWord j w).get (4 * k + r) =
      if k = j then BitVec.ofNat 8 (w.toNat / 256 ^ (3 - r)) else b.get (4 * k + r) := by
  rw [Block.setWord, Block.get_build _ (by omega), show (4 * k + r) / 4 = k by omega,
    show (4 * k + r) % 4 = r by omega]

/-- Two registers whose words `k` have the same bytes agree on that word. -/
theorem Block.word_congr {a b : Block} {k : Nat} (hk : k < 4)
    (h : ∀ r < 4, a.get (4 * k + r) = b.get (4 * k + r)) : a.word k = b.word k := by
  rw [Block.word, Block.word, a.slice_word hk, b.slice_word hk, h 1 (by decide), h 2 (by decide),
    h 3 (by decide), show a.get (4 * k) = b.get (4 * k) from h 0 (by decide)]

/-- The word just written is the word read. -/
theorem Block.word_setWord_same (b : Block) (w : Word) {j : Nat} (hj : j < 4) :
    (b.setWord j w).word j = w := by
  have hw := w.isLt
  have hget {r : Nat} (hr : r < 4) :
      ((b.setWord j w).get (4 * j + r)).toNat = w.toNat / 256 ^ (3 - r) % 256 := by
    rw [Block.get_setWord b w hj hr, if_pos rfl]
    rfl
  apply BitVec.eq_of_toNat_eq
  rw [Block.word_toNat _ hj, hget (r := 1) (by decide), hget (r := 2) (by decide),
    hget (r := 3) (by decide),
    show ((b.setWord j w).get (4 * j)).toNat = _ from hget (r := 0) (by decide)]
  omega

theorem Block.word_setWord (b : Block) (w : Word) {j k : Nat} (hk : k < 4) :
    (b.setWord j w).word k = if k = j then w else b.word k := by
  split
  · next h => subst h; exact b.word_setWord_same w hk
  · next h => exact Block.word_congr hk fun r hr => by rw [Block.get_setWord b w hk hr, if_neg h]

/-- Settles O7: a word is its four bytes, and a block is its four words. -/
theorem registerWordsAreBigEndian : Obligations.RegisterWordsAreBigEndian := by
  refine fun b => ⟨fun j hj => b.word_toNat hj, ?_, fun j hj k hk w => b.word_setWord w hk⟩
  rw [b.toNat_eq_words, toNat_append_word, toNat_append_word, toNat_append_word]

end Sys2Proof

namespace Sys2Proof.Machine

/-! ### What an access reaches (R41, R43) -/

/-- The 24 mapped words, each at its offset, in the order of the map of R43. -/
def regMap : List (Nat × Reg) :=
  (List.range 24).filterMap fun k => (regAt (4 * k)).map fun r => (4 * k, r)

theorem regAt_of_mem_regMap {p : Nat × Reg} (h : p ∈ regMap) : regAt p.1 = some p.2 := by
  obtain ⟨k, -, hk⟩ := List.mem_filterMap.1 h
  obtain ⟨r, hr, rfl⟩ := Option.map_eq_some_iff.1 hk
  exact hr

/-- The map lists the multiples of 4 below 0x60, and no other offset. -/
theorem regAt_eq_none_iff (offset : Nat) : regAt offset = none ↔ offset % 4 ≠ 0 ∨ 0x60 ≤ offset := by
  constructor
  · intro h
    have hmapped : ∀ o < 0x60, o % 4 = 0 → regAt o ≠ none := by decide
    by_contra hoff
    exact hmapped offset (by omega) (by omega) h
  · intro h
    unfold regAt
    split
    case h_25 => rfl
    all_goals omega

/-- R41: an access is refused for its width, or for an offset that is not mapped. -/
theorem regOfAccess_eq_none_iff (width offset : Nat) :
    regOfAccess width offset = none ↔ width ≠ 32 ∨ offset % 4 ≠ 0 ∨ 0x60 ≤ offset := by
  rw [← regAt_eq_none_iff, regOfAccess]
  split <;> simp [*]

section
variable {s : State} {width offset : Nat}

theorem perform_regRead_of_none (h : regOfAccess width offset = none) :
    perform (.regRead width offset) s = .next (s.setReply .refused) := by
  simp [perform, regRead, h]

theorem perform_regWrite_of_none (v : Word) (h : regOfAccess width offset = none) :
    perform (.regWrite width offset v) s = .next (s.setReply .refused) := by
  simp [perform, regWrite, h]

theorem perform_regRead_of_some {r : Reg} (h : regOfAccess width offset = some r) :
    perform (.regRead width offset) s = .next (s.setReply (.data (s.readReg r))) := by
  simp [perform, regRead, h]

theorem perform_regWrite_of_some (v : Word) {r : Reg} (h : regOfAccess width offset = some r)
    (hr : r ≠ .cmd) :
    perform (.regWrite width offset v) s = .next ((s.writeReg r v).setReply .done) := by
  rw [perform, regWrite, h]
  cases r with
  | cmd => exact absurd rfl hr
  | _ => rfl

theorem perform_regWrite_cmd (v : Word) (h : regOfAccess width offset = some .cmd) :
    perform (.regWrite width offset v) s = runCommand v (s.setReply .done) := by
  simp [perform, regWrite, h]

end

/-- A command does not touch the bus's answer (R41, log entry 4). -/
theorem runCommand_reply {w : Word} {s t : State} (h : runCommand w s = .next t) :
    t.reply = s.reply := by
  cases hd : decode w with
  | error e => simp only [runCommand, hd] at h; cases h; rfl
  | ok i =>
    obtain ⟨-, -, -, -, -, -, -, hreply⟩ := (exec_effect (runCommand_of_decode hd s ▸ h)).frame
    exact hreply

/-- A write that is not refused is answered. -/
theorem perform_regWrite_done {s : State} {width offset : Nat} {r : Reg} (v : Word)
    (h : regOfAccess width offset = some r) :
    ∃ t, perform (.regWrite width offset v) s = .next t ∧ t.reply = .done := by
  by_cases hr : r = .cmd
  · subst hr
    obtain ⟨t, ht⟩ := runCommand_next v (s.setReply .done)
    exact ⟨t, (perform_regWrite_cmd v h).trans ht, runCommand_reply ht⟩
  · exact ⟨_, perform_regWrite_of_some v h hr, rfl⟩

/-- Settles O8: an access is refused exactly where it reaches no register. -/
theorem refusedAccessesChangeNothing : Obligations.RefusedAccessesChangeNothing := by
  refine fun s width offset v => ⟨fun hbad => ?_, fun hwidth halign hlt => ?_⟩
  · have hnone := (regOfAccess_eq_none_iff width offset).2 hbad
    exact ⟨perform_regRead_of_none hnone, perform_regWrite_of_none v hnone⟩
  · have hne : regOfAccess width offset ≠ none := fun hnone => by
      have := (regOfAccess_eq_none_iff width offset).1 hnone
      omega
    obtain ⟨r, hr⟩ := Option.ne_none_iff_exists'.1 hne
    exact ⟨⟨_, perform_regRead_of_some hr⟩, perform_regWrite_done v hr⟩

/-! ### The map, word by word (R43, R44) -/

/-- A 32-bit read at a mapped offset answers what `readReg` says, and changes no register. -/
theorem perform_regRead_regMap (s : State) :
    ∀ q ∈ regMap.map fun p => (p.1, s.readReg p.2),
      perform (.regRead 32 q.1) s = .next { s with reply := .data q.2 } :=
  List.forall_mem_map.2 fun _ hp => perform_regRead_of_some (regAt_of_mem_regMap hp)

/-- A 32-bit write at a mapped offset other than that of CMD, the first, does what `writeReg` says. -/
theorem perform_regWrite_regMap (s : State) (v : Word) :
    ∀ q ∈ regMap.tail.map fun p => (p.1, s.writeReg p.2 v),
      perform (.regWrite 32 q.1 v) s = .next { q.2 with reply := .done } := by
  have hcmd : ∀ p ∈ regMap.tail, p.2 ≠ .cmd := by decide
  exact List.forall_mem_map.2 fun p hp =>
    perform_regWrite_of_some v (regAt_of_mem_regMap (List.mem_of_mem_tail hp)) (hcmd p hp)

/-- Settles O6: the two lists of the statement are the map of R43, with what a read of each of its words
returns and what a write of each sets. -/
theorem registerMapReadsAndWrites : Obligations.RegisterMapReadsAndWrites :=
  fun s => ⟨perform_regRead_regMap s, perform_regWrite_regMap s⟩

end Sys2Proof.Machine

/-! ## The block commands, block after block -/

namespace Sys2Proof.Machine

/-! ### The walk as a sequence of memories (R57) -/

/-- A walk gives a memory and a carried value before each block: block `k` is read from the one, and
its output and what it carries on make the next. -/
theorem walkBlocks_sequence {σ α : Type} (fetch : Memory → Nat → α) (f : σ → α → Block × σ)
    (dst : Nat) (m₀ : Memory) (x₀ : σ) :
    ∃ (m : Nat → Memory) (x : Nat → σ), m 0 = m₀ ∧ x 0 = x₀ ∧
      (∀ k, m (k + 1) = (m k).writeBlock (dst + 16 * k) (f (x k) (fetch (m k) k)).1) ∧
      (∀ k, x (k + 1) = (f (x k) (fetch (m k) k)).2) ∧
      ∀ n, walkBlocks fetch f dst n 0 m₀ x₀ = (m n, x n) := by
  have hnext (k : Nat) := walkBlocks_succ fetch f dst k 0 m₀ x₀
  simp only [Nat.zero_add] at hnext
  exact ⟨fun k => (walkBlocks fetch f dst k 0 m₀ x₀).1, fun k => (walkBlocks fetch f dst k 0 m₀ x₀).2,
    rfl, rfl, fun k => congrArg Prod.fst (hnext k), fun k => congrArg Prod.snd (hnext k), fun _ => rfl⟩

/-- A walk over the whole blocks of a buffer leaves every byte outside them as it was. -/
theorem walkBlocks_frame_whole {σ α : Type} (fetch : Memory → Nat → α) (f : σ → α → Block × σ)
    (dst n : Nat) (m : Memory) (x : σ) :
    sameOutside dst (16 * (n / 16)) m (walkBlocks fetch f dst (n / 16) 0 m x).1 :=
  walkBlocks_frame fetch f dst (n / 16) 0 m x

/-! ### ECB (R104, R105) -/

/-- The two ECB commands: the MODE each runs in, and its cipher. -/
def ecbEngines (s : State) : List (Mode × Instr × (Block → Block)) :=
  [(.ecbEnc, .ecbEnc, aesEnc s.key), (.ecbDec, .ecbDec, aesDec s.key)]

/-- One block of ECB: its cipher, with nothing carried on. -/
def ecbStep (cipher : Block → Block) (u : Unit) (x : Block) : Block × Unit := (cipher x, u)

theorem ecbBody_eq_walk (cipher : Block → Block) (s : State) :
    ecbBody cipher s = s.setMem (walkBlocks (fetchBlock s.src.toNat) (ecbStep cipher) s.dst.toNat
      (s.len.toNat / 16) 0 s.mem ()).1 := rfl

theorem exec_ecbEnc (s : State) : exec .ecbEnc s = execEcbEnc s := rfl
theorem exec_ecbDec (s : State) : exec .ecbDec s = execEcbDec s := rfl

section
variable {s : State} (hlen : s.len.toNat % 16 = 0)
include hlen

/-- The blocks of a buffer of whole blocks are the buffer. -/
theorem mul_blocks_len : 16 * (s.len.toNat / 16) = s.len.toNat :=
  Nat.mul_div_cancel' (Nat.dvd_of_mod_eq_zero hlen)

variable (hsrc : rangeOK s.backed s.src.toNat s.len.toNat = true)
  (hdst : rangeOK s.backed s.dst.toNat s.len.toNat = true)
include hsrc hdst

/-- An ECB command in its MODE, on whole blocks within backed memory, does its body. -/
theorem exec_ecb {p : Mode × Instr × (Block → Block)} (hp : p ∈ ecbEngines s)
    (hmode : s.mode = p.1) : exec p.2.1 s = .next (ecbBody p.2.2 s).finish := by
  obtain rfl | rfl : p = _ ∨ p = _ := by simpa [ecbEngines] using hp
  · exact (exec_ecbEnc s).trans <| State.command_of_checks <|
      firstError_blockChecks (m := .ecbEnc) (by decide) hmode hlen hsrc hdst
  · exact (exec_ecbDec s).trans <| State.command_of_checks <|
      firstError_blockChecks (m := .ecbDec) (by decide) hmode hlen hsrc hdst

theorem exec_cbcEnc_body (hmode : s.mode = .cbcEnc) :
    exec .cbcEnc s = .next (cbcBody (cbcEncStep s.key) s).finish :=
  (exec_cbcEnc s).trans <| State.command_of_checks <|
    firstError_blockChecks (by decide) hmode hlen hsrc hdst

theorem exec_cbcDec_body (hmode : s.mode = .cbcDec) :
    exec .cbcDec s = .next (cbcBody (cbcDecStep s.key) s).finish :=
  (exec_cbcDec s).trans <| State.command_of_checks <|
    firstError_blockChecks (by decide) hmode hlen hsrc hdst

end

/-- Settles O23: the memories are those of the walk, before each block and after the last. -/
theorem ecbCommandsGoBlockByBlock : Obligations.EcbCommandsGoBlockByBlock := by
  intro s hlen hsrc hdst p hp hmode
  obtain ⟨m, u, hm0, -, hm, -, hwalk⟩ :=
    walkBlocks_sequence (fetchBlock s.src.toNat) (ecbStep p.2.2) s.dst.toNat s.mem ()
  have hframe := walkBlocks_frame_whole (fetchBlock s.src.toNat) (ecbStep p.2.2) s.dst.toNat
    s.len.toNat s.mem ()
  rw [hwalk, mul_blocks_len hlen] at hframe
  have hexec := exec_ecb hlen hsrc hdst hp hmode
  rw [ecbBody_eq_walk, hwalk] at hexec
  exact ⟨m, hm0, fun k _ => hm k, hexec, hframe⟩

/-- Settles O24: the output blocks of the walk, none of which depends on what is carried. -/
theorem ecbInPlaceAndDisjointAgree : Obligations.EcbInPlaceAndDisjointAgree := by
  intro s hlen hsrc hdst hsame p hp hmode
  rw [← mul_blocks_len hlen] at hsame
  exact ⟨_, exec_ecb hlen hsrc hdst hp hmode, rfl,
    fun k hk => walkBlocks_output (ecbStep p.2.2) s.mem () hsame hk⟩

/-! ### CBC (R163, R164) -/

/-- A CBC body goes block after block: memory and chaining value before each block, the state it ends
in, and its frame. -/
theorem cbcBody_sequence (f : Block → Block → Block × Block) {s : State}
    (hlen : s.len.toNat % 16 = 0) :
    ∃ (m : Nat → Memory) (v : Nat → Block), m 0 = s.mem ∧ v 0 = s.iv ∧
      (∀ k, m (k + 1) = (m k).writeBlock (s.dst.toNat + 16 * k)
        (f (v k) ((m k).readBlock (s.src.toNat + 16 * k))).1) ∧
      (∀ k, v (k + 1) = (f (v k) ((m k).readBlock (s.src.toNat + 16 * k))).2) ∧
      cbcBody f s = (s.setMem (m (s.len.toNat / 16))).setIv (v (s.len.toNat / 16)) ∧
      sameOutside s.dst.toNat s.len.toNat s.mem (m (s.len.toNat / 16)) := by
  obtain ⟨m, v, hm0, hv0, hm, hv, hwalk⟩ :=
    walkBlocks_sequence (fetchBlock s.src.toNat) f s.dst.toNat s.mem s.iv
  have hframe := walkBlocks_frame_whole (fetchBlock s.src.toNat) f s.dst.toNat s.len.toNat s.mem s.iv
  rw [hwalk, mul_blocks_len hlen] at hframe
  exact ⟨m, v, hm0, hv0, hm, hv, by rw [cbcBody, hwalk], hframe⟩

/-- Settles O36: what each engine carries on is the ciphertext block, the one produced or the one
read. -/
theorem cbcCommandsGoBlockByBlock : Obligations.CbcCommandsGoBlockByBlock := by
  intro s hlen hsrc hdst
  refine ⟨fun hmode => ?_, fun hmode => ?_⟩
  · obtain ⟨m, v, hm0, hv0, hm, hv, hbody, hframe⟩ := cbcBody_sequence (cbcEncStep s.key) hlen
    have hexec := exec_cbcEnc_body hlen hsrc hdst hmode
    rw [hbody] at hexec
    exact ⟨m, v, hm0, hv0, fun k _ => ⟨hv k, hv k ▸ hm k⟩, hexec, hframe⟩
  · obtain ⟨m, v, hm0, hv0, hm, hv, hbody, hframe⟩ := cbcBody_sequence (cbcDecStep s.key) hlen
    have hexec := exec_cbcDec_body hlen hsrc hdst hmode
    rw [hbody] at hexec
    exact ⟨m, v, hm0, hv0, fun k _ => ⟨hv k, hv k ▸ hm k⟩, hexec, hframe⟩

/-! ### CTR_STREAM (R146) -/

/-- R144: an output block is the encrypted counter, xor the input unless KS. -/
theorem cryptBlock_fetchInput (key c : Block) (ks : Bool) (src : Nat) (m : Memory) (k : Nat) :
    cryptBlock key c (fetchInput ks src m k) =
      (if ks then aesEnc key c else (aesEnc key c).xor (m.readBlock (src + 16 * k)),
        addCounter c 1) := by
  cases ks <;> rfl

/-- A zero input gives the encrypted counter itself. -/
theorem cryptBlock_zeros (key c : Block) :
    cryptBlock key c (some Block.zeros) = (aesEnc key c, addCounter c 1) := by
  simp [cryptBlock]

/-- The output bytes of the tail: `r` bytes of the keystream block, xor the input unless KS. -/
def tailBytes (ks : Bool) (stream : Block) (r : Nat) (input : Bytes) : Bytes :=
  if ks then stream.bytes.take r else xorBytes (stream.bytes.take r) input

theorem tailBytes_length (ks : Bool) (stream : Block) {r : Nat} (hr : r ≤ 16) {input : Bytes}
    (hin : input.length = r) : (tailBytes ks stream r input).length = r := by
  cases ks <;> simp [tailBytes, xorBytes_length, hin, hr]

/-- The tail writes its bytes and moves the counter on once. -/
theorem ctrTail_eq (ks : Bool) (off r : Nat) (s : State) :
    ctrTail ks off r s =
      (s.setMem (s.mem.writeBytes (s.dst.toNat + off) (tailBytes ks (aesEnc s.key s.ctr) r
        (s.mem.readBytes (s.src.toNat + off) r)))).setCtr (addCounter s.ctr 1) := by
  simp only [ctrTail, cryptBlock_zeros, tailBytes]

theorem ctrTail_frame (ks : Bool) (off : Nat) {r : Nat} (hr : r ≤ 16) (s : State) :
    sameOutside (s.dst.toNat + off) r s.mem (ctrTail ks off r s).mem := by
  have hwrite := s.mem.read_writeBytes_outside (s.dst.toNat + off)
    (tailBytes ks (aesEnc s.key s.ctr) r (s.mem.readBytes (s.src.toNat + off) r))
  rw [tailBytes_length ks _ hr (Memory.readBytes_length _ _ _)] at hwrite
  rw [ctrTail_eq]
  exact hwrite

theorem exec_ctrStream (ks : Bool) (s : State) : exec (.ctrStream ks) s = execCtrStream ks s := rfl

/-- CTR_STREAM in MODE = CTR, on ranges in order, does its body; with KS = 1 no input range is asked
for. -/
theorem exec_ctrStream_body {s : State} {ks : Bool} (hmode : s.mode = .ctr)
    (hsrc : ks = false → rangeOK s.backed s.src.toNat s.len.toNat = true)
    (hdst : rangeOK s.backed s.dst.toNat s.len.toNat = true) :
    exec (.ctrStream ks) s = .next (ctrStreamBody ks s).finish := by
  refine (exec_ctrStream ks s).trans <| State.command_of_checks ?_
  have hranges : rangeCheck s (ctrRanges ks s.len.toNat s) = none := by
    rw [rangeCheck_eq_none_iff]
    cases ks with
    | false => simp [ctrRanges, hsrc rfl, hdst]
    | true => simpa [ctrRanges] using hdst
  rw [(useCheck_eq_none_iff (by decide) s).2 hmode, hranges]
  rfl

/-- The body without a tail is the full blocks. -/
theorem ctrStreamBody_of_whole {s : State} (ks : Bool) (h : s.len.toNat % 16 = 0) :
    ctrStreamBody ks s = (s.setMem (ctrBlocks ks (s.len.toNat / 16) s).1).setCtr
      (ctrBlocks ks (s.len.toNat / 16) s).2 := by
  simp [ctrStreamBody, h]

/-- The body with a tail is the full blocks and then the tail. -/
theorem ctrStreamBody_of_tail {s : State} (ks : Bool) (h : s.len.toNat % 16 ≠ 0) :
    ctrStreamBody ks s = ctrTail ks (16 * (s.len.toNat / 16)) (s.len.toNat % 16)
      ((s.setMem (ctrBlocks ks (s.len.toNat / 16) s).1).setCtr
        (ctrBlocks ks (s.len.toNat / 16) s).2) := by
  simp [ctrStreamBody, h]

/-- Two changes, each within its part of a buffer, are a change within the buffer. -/
theorem sameOutside.trans_append {a n k : Nat} {m m' m'' : Memory} (h : sameOutside a n m m')
    (h' : sameOutside (a + n) k m' m'') : sameOutside a (n + k) m m'' := fun b hb =>
  (h' b (by omega)).trans (h b (by omega))

/-- Exactly LEN bytes at DST change. -/
theorem ctrStreamBody_frame (ks : Bool) (s : State) :
    sameOutside s.dst.toNat s.len.toNat s.mem (ctrStreamBody ks s).mem := by
  have hblocks := walkBlocks_frame_whole (fetchInput ks s.src.toNat) (cryptBlock s.key) s.dst.toNat
    s.len.toNat s.mem s.ctr
  by_cases h : s.len.toNat % 16 = 0
  · rw [ctrStreamBody_of_whole ks h]
    rwa [mul_blocks_len h] at hblocks
  · have hboth := hblocks.trans_append <| ctrTail_frame ks (16 * (s.len.toNat / 16))
      (r := s.len.toNat % 16) (by omega) ((s.setMem (ctrBlocks ks (s.len.toNat / 16) s).1).setCtr
        (ctrBlocks ks (s.len.toNat / 16) s).2)
    rwa [Nat.div_add_mod, ← ctrStreamBody_of_tail ks h] at hboth

/-- Settles O31: memory and counter are those of the walk over the full blocks; the tail comes after. -/
theorem ctrStreamGoesBlockByBlock : Obligations.CtrStreamGoesBlockByBlock := by
  intro s ks hmode hsrc hdst
  obtain ⟨m, c, hm0, hc0, hm, hc, hwalk⟩ :=
    walkBlocks_sequence (fetchInput ks s.src.toNat) (cryptBlock s.key) s.dst.toNat s.mem s.ctr
  have hblocks : ctrBlocks ks (s.len.toNat / 16) s = (m (s.len.toNat / 16), c (s.len.toNat / 16)) :=
    hwalk _
  simp only [cryptBlock_fetchInput] at hm hc
  refine ⟨m, c, _, hm0, hc0, fun k _ => ⟨hc k, hm k⟩, exec_ctrStream_body hmode hsrc hdst,
    fun h => ?_, fun h => ?_, ctrStreamBody_frame ks s⟩
  · rw [ctrStreamBody_of_whole ks h, hblocks]
    rfl
  · rw [ctrStreamBody_of_tail ks h, hblocks, ctrTail_eq]
    rfl

end Sys2Proof.Machine

/-! ## Decoding and encoding of the command word -/

namespace Sys2Proof

/-! ### The words that decode (R74, R75) -/

/-- The tests R75 makes of a word beside the look-up of its OPCODE; `decode_eq_ok_iff` ties it to `decode`. -/
def FieldsLegal (w : Word) : Prop :=
  fieldRsv3 w = 0 ∧ fieldRsv1 w = 0 ∧ (fieldImm8 w = 0 ∨ fieldOpcode w = 0x32) ∧
    (fieldKs w = false ∨ fieldOpcode w = 0x33 ∨ fieldOpcode w = 0x34)

/-- The tests as `decode` makes them, each of them for what makes the word illegal. -/
theorem fieldsLegal_iff {w : Word} :
    FieldsLegal w ↔ ¬(fieldRsv3 w ≠ 0 ∨ fieldRsv1 w ≠ 0) ∧
      ¬(fieldImm8 w ≠ 0 ∧ fieldOpcode w ≠ 0x32) ∧
      ¬(fieldKs w = true ∧ fieldOpcode w ≠ 0x33 ∧ fieldOpcode w ≠ 0x34) := by
  simp only [FieldsLegal, not_or, not_and_or, Decidable.not_not, Bool.not_eq_true, and_assoc]

theorem decode_eq_ok_iff {w : Word} {i : Instr} :
    decode w = .ok i ↔
      commandOf (fieldOpcode w) (fieldImm8 w) (fieldKs w) = some i ∧ FieldsLegal w := by
  rw [fieldsLegal_iff]
  simp only [decode]
  cases commandOf (fieldOpcode w) (fieldImm8 w) (fieldKs w) with
  | none => simp
  | some j =>
    split_ifs with hrsv himm hks
    · simp [hrsv]
    · simp [himm]
    · simp [hks]
    · simp [hrsv, himm, hks]

/-! ### The opcode map read backwards (R71 to R73) -/

/-- What the opcode map gives has the OPCODE looked up, and the fields its row has. -/
theorem fields_of_commandOf {op imm : Nat} {ks : Bool} {i : Instr} (h : commandOf op imm ks = some i) :
    opcodeOf i = op ∧ (op = 0x32 → imm8Of i = imm) ∧ (op = 0x33 ∨ op = 0x34 → ksOf i = ks) := by
  unfold commandOf at h
  split at h <;> cases h <;> simp [opcodeOf, imm8Of, ksOf]

/-- Every field of a legal word is the field of the command it decodes to, as those that the command
does not have are zero on both sides. -/
theorem fields_of_decode {w : Word} {i : Instr} (h : decode w = .ok i) :
    opcodeOf i = fieldOpcode w ∧ imm8Of i = fieldImm8 w ∧ ksOf i = fieldKs w := by
  obtain ⟨hcmd, -, -, himm, hks⟩ := decode_eq_ok_iff.1 h
  obtain ⟨hop, himm_row, hks_row⟩ := fields_of_commandOf hcmd
  refine ⟨hop, ?_, ?_⟩
  · by_cases hadd : fieldOpcode w = 0x32
    · exact himm_row hadd
    · rw [himm.resolve_right hadd, imm8Of_eq_zero (hop ▸ hadd)]
  · by_cases hctr : fieldOpcode w = 0x33 ∨ fieldOpcode w = 0x34
    · exact hks_row hctr
    · obtain ⟨hblock, hstream⟩ := not_or.1 hctr
      rw [hks.resolve_right hctr, ksOf_eq_false (hop ▸ hblock) (hop ▸ hstream)]

/-- The converse of `imm8Of_lt`: a command whose immediate fits the field IMM8 has an encoding (R72). -/
theorem wellFormed_of_imm8Of_lt {i : Instr} (h : imm8Of i < 256) : i.wellFormed = true := by
  cases i with
  | ctrAdd imm => simpa [Instr.wellFormed, imm8Of] using h
  | _ => rfl

/-! ### The two round trips -/

theorem fieldKs_toNat (w : Word) : (fieldKs w).toNat = w.toNat / 256 % 2 := by
  rw [fieldKs]
  rcases Nat.mod_two_eq_zero_or_one (w.toNat / 256) with h | h <;> rw [h] <;> rfl

/-- The five fields are all the bits of a word (R70). -/
theorem toNat_eq_fields (w : Word) :
    w.toNat = fieldOpcode w + 256 * (fieldKs w).toNat + 512 * fieldRsv1 w + 65536 * fieldImm8 w +
      16777216 * fieldRsv3 w := by
  rw [fieldKs_toNat]
  unfold fieldOpcode fieldRsv1 fieldImm8 fieldRsv3
  omega

theorem wellFormed_of_decode {w : Word} {i : Instr} (h : decode w = .ok i) : i.wellFormed = true := by
  obtain ⟨-, himm, -⟩ := fields_of_decode h
  exact wellFormed_of_imm8Of_lt (himm ▸ Nat.mod_lt _ (by decide))

theorem encode_of_decode {w : Word} {i : Instr} (h : decode w = .ok i) : encode i = w := by
  obtain ⟨hop, himm, hks⟩ := fields_of_decode h
  obtain ⟨-, hrsv3, hrsv1, -, -⟩ := decode_eq_ok_iff.1 h
  apply BitVec.eq_of_toNat_eq
  rw [encode_toNat (wellFormed_of_decode h), toNat_eq_fields w, hop, himm, hks, hrsv3, hrsv1]
  omega

/-- The decoder and the encoder are each other's inverse between legal words and well-formed commands. -/
theorem decode_eq_ok_iff_encode {w : Word} {i : Instr} :
    decode w = .ok i ↔ i.wellFormed = true ∧ encode i = w := by
  constructor
  · exact fun h => ⟨wellFormed_of_decode h, encode_of_decode h⟩
  · rintro ⟨hwf, rfl⟩
    exact decode_encode hwf

/-- Settles O1: every test of R75 passes on the encoded word, whose fields are the command's. -/
theorem decodeUndoesEncode : Obligations.DecodeUndoesEncode :=
  fun _ hwf => decode_eq_ok_iff_encode.2 ⟨hwf, rfl⟩

/-- Settles O2: the command has the word's fields, and a word is the sum of its fields. -/
theorem encodeUndoesDecode : Obligations.EncodeUndoesDecode :=
  fun _ _ h => decode_eq_ok_iff_encode.1 h

/-- Settles O4: seven of the words are encodings; of the other two, one has no command's OPCODE and one
sets KS in a command without that flag. -/
theorem decodeOfWrittenWords : Obligations.DecodeOfWrittenWords := by
  have reads {w : Word} {i : Instr} (hwf : i.wellFormed = true) (hw : encode i = w) :
      decode w = .ok i := decode_eq_ok_iff_encode.2 ⟨hwf, hw⟩
  exact ⟨reads rfl rfl, reads rfl rfl, reads rfl rfl, reads rfl rfl, reads rfl rfl, reads rfl rfl,
    reads rfl rfl, by decide, by decide⟩

/-! ### Legal words, bit for bit (R74) -/

/-- The OPCODE column of R71. -/
def opcodes : List Nat :=
  [0x10, 0x11, 0x12, 0x13, 0x20, 0x30, 0x31, 0x32, 0x33, 0x34, 0x40, 0x41, 0x42, 0x43,
    0x50, 0x51, 0x52, 0x53, 0x60, 0x61]

theorem opcodeOf_mem_opcodes (i : Instr) : opcodeOf i ∈ opcodes := by
  cases i <;> simp [opcodeOf, opcodes]

/-- The opcode map gives a command on the column's values and on no other. -/
theorem exists_commandOf_iff {op imm : Nat} {ks : Bool} :
    (∃ i, commandOf op imm ks = some i) ↔ op ∈ opcodes := by
  constructor
  · rintro ⟨i, h⟩
    obtain ⟨rfl, -, -⟩ := fields_of_commandOf h
    exact opcodeOf_mem_opcodes i
  · have hall : ∀ op ∈ opcodes, ∃ i, commandOf op imm ks = some i := by
      simp [opcodes, commandOf]
    exact hall op

theorem exists_decode_iff {w : Word} :
    (∃ i, decode w = .ok i) ↔ fieldOpcode w ∈ opcodes ∧ FieldsLegal w := by
  simp only [decode_eq_ok_iff, exists_and_right, exists_commandOf_iff]

theorem extractLsb'_eq_zero_iff (w : Word) (i n : Nat) :
    w.extractLsb' i n = 0 ↔ w.toNat / 2 ^ i % 2 ^ n = 0 := by
  rw [← BitVec.toNat_inj, BitVec.extractLsb'_toNat, Nat.shiftRight_eq_div_pow]
  simp

section
variable (w : Word)

theorem extractLsb'_opcode : (w.extractLsb' 0 8).toNat = fieldOpcode w := by
  rw [BitVec.extractLsb'_toNat, Nat.shiftRight_zero, fieldOpcode]

theorem extractLsb'_ks : w.extractLsb' 8 1 = 0 ↔ fieldKs w = false := by
  rw [← Bool.toNat_eq_zero, fieldKs_toNat]
  exact extractLsb'_eq_zero_iff w 8 1

theorem extractLsb'_rsv1 : w.extractLsb' 9 7 = 0 ↔ fieldRsv1 w = 0 :=
  extractLsb'_eq_zero_iff w 9 7

theorem extractLsb'_imm8 : w.extractLsb' 16 8 = 0 ↔ fieldImm8 w = 0 :=
  extractLsb'_eq_zero_iff w 16 8

theorem extractLsb'_rsv3 : w.extractLsb' 24 8 = 0 ↔ fieldRsv3 w = 0 := by
  have hw := w.isLt
  rw [extractLsb'_eq_zero_iff, fieldRsv3]
  omega

end

end Sys2Proof

namespace Sys2Proof.Machine

/-! ### A write of an illegal word to CMD (R74) -/

theorem runCommand_of_illegal {w : Word} (h : ¬∃ i, decode w = .ok i) (s : State) :
    runCommand w s = .next (s.raise .illegalCommand) := by
  cases hd : decode w with
  | error e => simp only [runCommand, hd]
  | ok i => exact absurd ⟨i, hd⟩ h

theorem perform_cmd_of_illegal {w : Word} (h : ¬∃ i, decode w = .ok i) (s : State) :
    perform (.regWrite 32 0x00 w) s = .next ((s.setReply .done).raise .illegalCommand) :=
  (perform_regWrite_cmd w rfl).trans (runCommand_of_illegal h _)

/-- Settles O3: the bit ranges of R74 are the fields R75 tests, and a word that is not legal raises. -/
theorem legalEncodings : Obligations.LegalEncodings := by
  intro w op legal
  have hlegal : (∃ i, decode w = .ok i) ↔ legal := by
    simp only [legal, op, extractLsb'_opcode, extractLsb'_ks, extractLsb'_rsv1, extractLsb'_imm8,
      extractLsb'_rsv3]
    exact exists_decode_iff
  exact ⟨hlegal, fun hillegal s =>
    ⟨_, perform_cmd_of_illegal (hillegal ∘ hlegal.1) s, rfl, rfl⟩⟩

end Sys2Proof.Machine

/-! ## Bytes as elements of GF(2^8), and the S-boxes -/

namespace Sys2Proof

-- kernel evaluations side by side take more memory than the check allows
set_option Elab.async false

/-! ### Sums of bytes (R92) -/

/-- A bit of a sum selects what the bits of the summands select, added. -/
theorem select_xor (p q : Bool) (c : Byte) :
    (if p ^^ q then c else 0#8) = (if p then c else 0#8) ^^^ (if q then c else 0#8) := by
  cases p <;> cases q <;> simp

theorem xtime_eq (a : Byte) : xtime a = (a <<< 1) ^^^ (if a.msb then 0x1B else 0#8) := by
  rw [xtime]; split <;> simp

/-- Multiplication by 2 is linear: the reduction by 0x11B depends on one bit of the byte. -/
theorem xtime_xor (a b : Byte) : xtime (a ^^^ b) = xtime a ^^^ xtime b := by
  simp only [xtime_eq, BitVec.msb_xor, BitVec.shiftLeft_xor_distrib, select_xor]
  ac_rfl

@[simp] theorem xtime_zero : xtime 0#8 = 0#8 := rfl

@[simp] theorem gfMulFrom_zero (a : Byte) (b : Nat) : gfMulFrom 0 a b = 0#8 := rfl

theorem gfMulFrom_succ (n : Nat) (a : Byte) (b : Nat) :
    gfMulFrom (n + 1) a b =
      (if b.testBit 0 then a else 0#8) ^^^ gfMulFrom n (xtime a) (b / 2) := by
  simp [gfMulFrom]

@[simp] theorem gfMulFrom_zero_left (n b : Nat) : gfMulFrom n 0#8 b = 0#8 := by
  induction n generalizing b with
  | zero => simp
  | succ n ih => simp [gfMulFrom_succ, ih]

theorem gfMulFrom_xor_left (n : Nat) (a a' : Byte) (b : Nat) :
    gfMulFrom n (a ^^^ a') b = gfMulFrom n a b ^^^ gfMulFrom n a' b := by
  induction n generalizing a a' b with
  | zero => simp
  | succ n ih =>
    have hbit : (if b.testBit 0 then a ^^^ a' else 0#8) =
        (if b.testBit 0 then a else 0#8) ^^^ (if b.testBit 0 then a' else 0#8) := by
      split <;> simp
    simp only [gfMulFrom_succ, xtime_xor, ih, hbit]
    ac_rfl

theorem gfMulFrom_xor_right (n : Nat) (a : Byte) (b b' : Nat) :
    gfMulFrom n a (b ^^^ b') = gfMulFrom n a b ^^^ gfMulFrom n a b' := by
  induction n generalizing a b b' with
  | zero => simp
  | succ n ih =>
    simp only [gfMulFrom_succ, Nat.xor_div_two, ih, Nat.testBit_xor, select_xor]
    ac_rfl

theorem xtime_gfMulFrom (n : Nat) (a : Byte) (b : Nat) :
    xtime (gfMulFrom n a b) = gfMulFrom n (xtime a) b := by
  induction n generalizing a b with
  | zero => simp
  | succ n ih =>
    rw [gfMulFrom_succ, gfMulFrom_succ, xtime_xor, ih, apply_ite xtime, xtime_zero]

/-- R92, as the rule states it: the sum over the set bits of `b`, bit after bit. -/
theorem foldl_eq_gfMulFrom (n : Nat) (a : Byte) (b : Nat) (acc : Byte) :
    (List.range n).foldl (fun acc i => if b.testBit i then acc ^^^ xtime^[i] a else acc) acc =
      acc ^^^ gfMulFrom n a b := by
  induction n generalizing a b acc with
  | zero => simp
  | succ n ih =>
    have hacc : (if b.testBit 0 then acc ^^^ a else acc) =
        acc ^^^ (if b.testBit 0 then a else 0#8) := by split <;> simp
    rw [List.range_succ_eq_map, List.foldl_cons, List.foldl_map]
    simp only [Function.iterate_succ_apply, Nat.testBit_succ, Function.iterate_zero, id]
    rw [ih, hacc, gfMulFrom_succ, BitVec.xor_assoc]

/-- The product by one more bit, from the most significant end. -/
theorem gfMulFrom_succ_last (n : Nat) (a : Byte) (b : Nat) :
    gfMulFrom (n + 1) a b =
      gfMulFrom n a b ^^^ (if b.testBit n then xtime^[n] a else 0#8) := by
  have h (k : Nat) := foldl_eq_gfMulFrom k a b 0#8
  simp only [BitVec.zero_xor] at h
  rw [← h, ← h, List.range_succ, List.foldl_append]
  simp only [List.foldl_cons, List.foldl_nil]
  split <;> simp

theorem gfMulFrom_congr {n : Nat} (a : Byte) {b b' : Nat}
    (h : ∀ i < n, b.testBit i = b'.testBit i) : gfMulFrom n a b = gfMulFrom n a b' := by
  induction n with
  | zero => rfl
  | succ n ih =>
    rw [gfMulFrom_succ_last, gfMulFrom_succ_last, h n (by omega), ih fun i hi => h i (by omega)]

/-! ### Products of bytes (R92) -/

theorem gfMul_xor_left (a a' b : Byte) : gfMul (a ^^^ a') b = gfMul a b ^^^ gfMul a' b :=
  gfMulFrom_xor_left 8 a a' b.toNat

theorem gfMul_xor_right (a b b' : Byte) : gfMul a (b ^^^ b') = gfMul a b ^^^ gfMul a b' := by
  rw [gfMul, BitVec.toNat_xor, gfMulFrom_xor_right]
  rfl

@[simp] theorem gfMul_zero_left (a : Byte) : gfMul 0#8 a = 0#8 := gfMulFrom_zero_left 8 _

@[simp] theorem gfMul_zero_right (a : Byte) : gfMul a 0#8 = 0#8 := by
  simp [gfMul, gfMulFrom]

@[simp] theorem gfMul_one_right (a : Byte) : gfMul a 1#8 = a := by
  simp [gfMul, gfMulFrom]

theorem xtime_gfMul (a b : Byte) : xtime (gfMul a b) = gfMul (xtime a) b :=
  xtime_gfMulFrom 8 a b.toNat

/-- The reduction: x^8 is x^4 + x^3 + x + 1. -/
theorem iterate_xtime_eight : ∀ a : Byte, xtime^[8] a = gfMul a 0x1B := by
  decide +kernel

/-- Multiplication by 2 may move from one factor to the other. -/
theorem gfMul_xtime (a b : Byte) : gfMul a (xtime b) = gfMul (xtime a) b := by
  have hshift : gfMul a (b <<< 1) = gfMulFrom 7 (xtime a) b.toNat := by
    rw [gfMul, gfMulFrom_succ, ← BitVec.getLsbD, BitVec.getLsbD_shiftLeft]
    simp only [Nat.zero_lt_one, decide_true, Bool.not_true, Bool.and_false, Bool.false_and,
      Bool.false_eq_true, if_false, BitVec.zero_xor]
    refine gfMulFrom_congr _ fun i hi => ?_
    rw [← Nat.testBit_succ, ← BitVec.getLsbD, BitVec.getLsbD_shiftLeft]
    simp [show i + 1 < 8 by omega]
    rfl
  have hlast : gfMul (xtime a) b =
      gfMulFrom 7 (xtime a) b.toNat ^^^ (if b.msb then gfMul a 0x1B else 0#8) := by
    rw [gfMul, gfMulFrom_succ_last, ← Function.iterate_succ_apply, iterate_xtime_eight]
    rfl
  rw [hlast, ← hshift, xtime]
  split
  · rw [gfMul_xor_right]
  · rw [BitVec.xor_zero]

theorem gfMul_gfMulFrom (n : Nat) (a b : Byte) (c : Nat) :
    gfMulFrom n (gfMul a b) c = gfMul a (gfMulFrom n b c) := by
  induction n generalizing b c with
  | zero => exact (gfMul_zero_right a).symm
  | succ n ih =>
    rw [gfMulFrom_succ, gfMulFrom_succ, gfMul_xor_right, xtime_gfMul, ← gfMul_xtime, ih,
      apply_ite (gfMul a), gfMul_zero_right]

theorem gfMul_assoc (a b c : Byte) : gfMul (gfMul a b) c = gfMul a (gfMul b c) :=
  gfMul_gfMulFrom 8 a b c.toNat

/-! ### The S-boxes (R93, R94) -/

theorem invSbox_sbox : ∀ a : Byte, invSbox (sbox a) = a := by decide +kernel

theorem sbox_invSbox : ∀ a : Byte, sbox (invSbox a) = a := by decide +kernel

def gfSquare (a : Byte) : Byte := gfMul a a

/-- The inverse of a byte in the field, as its power `a^254 = a^2 · a^4 · … · a^128`; 0 for 0.
`gfMul_gfInv` says that it is the inverse. -/
def gfInv (a : Byte) : Byte :=
  gfMul (gfSquare a) (gfMul (gfSquare^[2] a) (gfMul (gfSquare^[3] a) (gfMul (gfSquare^[4] a)
    (gfMul (gfSquare^[5] a) (gfMul (gfSquare^[6] a) (gfSquare^[7] a))))))

theorem gfMul_gfInv : ∀ a : Byte, gfMul a (gfInv a) = 1 ∨ a = 0 ∧ gfInv a = 0 := by
  decide +kernel

/-- The affine map of R93. -/
def sboxAffine (b : Byte) : Byte :=
  b ^^^ b.rotateLeft 1 ^^^ b.rotateLeft 2 ^^^ b.rotateLeft 3 ^^^ b.rotateLeft 4 ^^^ 0x63

theorem sbox_eq_affine_gfInv : ∀ a : Byte, sbox a = sboxAffine (gfInv a) := by decide +kernel

/-- Settles O20: the table is the affine map of the field inverse, entry by entry. -/
theorem sboxIsTheAffineInverse : Obligations.SboxIsTheAffineInverse := fun a =>
  ⟨⟨gfInv a, gfMul_gfInv a, sbox_eq_affine_gfInv a⟩, invSbox_sbox a, sbox_invSbox a⟩

end Sys2Proof

/-! ## The AES cipher -/

namespace Sys2Proof

-- kernel evaluations side by side take more memory than the check allows
set_option Elab.async false

/-! ### Columns times matrices (R96, R97) -/

/-- A 4 × 4 matrix over the field: its coefficient at row `r`, column `j`. -/
abbrev ByteMatrix := Nat → Nat → Byte

/-- Each column of the state times a matrix; `mixColumns_eq` and `invMixColumns_eq` tie it to the two
transformations of the cipher. -/
def mixWith (m : ByteMatrix) (s : Block) : Block :=
  Block.build fun i => mixByte s (i / 4) (m (i % 4) 0) (m (i % 4) 1) (m (i % 4) 2) (m (i % 4) 3)

/-- Row `r` of a circulant matrix is its first row, rotated right by `r`. -/
def circulant (row : Bytes) : ByteMatrix := fun r j => row.getD ((j + 4 - r) % 4) 0

def mixMatrix : ByteMatrix := circulant [2, 3, 1, 1]

def invMixMatrix : ByteMatrix := circulant [0x0E, 0x0B, 0x0D, 0x09]

/-- The product of two matrices. -/
def mulMatrix (n m : ByteMatrix) : ByteMatrix := fun r j =>
  gfMul (m 0 j) (n r 0) ^^^ gfMul (m 1 j) (n r 1) ^^^ gfMul (m 2 j) (n r 2) ^^^ gfMul (m 3 j) (n r 3)

theorem mixWith_get (m : ByteMatrix) (s : Block) {r c : Nat} (hr : r < 4) (hc : c < 4) :
    (mixWith m s).get (4 * c + r) = mixByte s c (m r 0) (m r 1) (m r 2) (m r 3) := by
  rw [mixWith, Block.get_build _ (by omega), show (4 * c + r) / 4 = c by omega,
    show (4 * c + r) % 4 = r by omega]

theorem mixColumns_eq (s : Block) : mixColumns s = mixWith mixMatrix s := by
  refine congrArg Block.build (funext fun i => ?_)
  have hi : i % 4 < 4 := by omega
  interval_cases i % 4 <;> rfl

theorem invMixColumns_eq (s : Block) : invMixColumns s = mixWith invMixMatrix s := by
  refine congrArg Block.build (funext fun i => ?_)
  have hi : i % 4 < 4 := by omega
  interval_cases i % 4 <;> rfl

/-- Two matrices in turn are their product. -/
theorem mixWith_mixWith (n m : ByteMatrix) (s : Block) :
    mixWith n (mixWith m s) = mixWith (mulMatrix n m) s := by
  refine Block.ext_get fun i hi => ?_
  obtain ⟨c, r, hc, hr, rfl⟩ : ∃ c r, c < 4 ∧ r < 4 ∧ i = 4 * c + r :=
    ⟨i / 4, i % 4, by omega, by omega, by omega⟩
  have hcol {k : Nat} (hk : k < 4) := mixWith_get m s hk hc
  rw [mixWith_get _ _ hr hc, mixWith_get _ _ hr hc, mixByte, hcol (k := 1) (by decide),
    hcol (k := 2) (by decide), hcol (k := 3) (by decide),
    show (mixWith m s).get (4 * c) = _ from hcol (k := 0) (by decide)]
  simp only [mixByte, mulMatrix, gfMul_xor_left, gfMul_xor_right, gfMul_assoc]
  ac_rfl

/-- A matrix that is the identity leaves the state. -/
theorem mixWith_identity {m : ByteMatrix} (h : ∀ r < 4, ∀ j < 4, m r j = if r = j then 1 else 0)
    (s : Block) : mixWith m s = s := by
  refine Block.ext_get fun i hi => ?_
  obtain ⟨c, r, hc, hr, rfl⟩ : ∃ c r, c < 4 ∧ r < 4 ∧ i = 4 * c + r :=
    ⟨i / 4, i % 4, by omega, by omega, by omega⟩
  rw [mixWith_get _ _ hr hc, mixByte, h r hr 0 (by decide), h r hr 1 (by decide),
    h r hr 2 (by decide), h r hr 3 (by decide)]
  interval_cases r <;> simp

theorem invMixMatrix_mul_mixMatrix :
    ∀ r < 4, ∀ j < 4, mulMatrix invMixMatrix mixMatrix r j = if r = j then 1 else 0 := by
  decide

theorem mixMatrix_mul_invMixMatrix :
    ∀ r < 4, ∀ j < 4, mulMatrix mixMatrix invMixMatrix r j = if r = j then 1 else 0 := by
  decide

/-! ### Each inverse transformation undoes its transformation (R97) -/

@[simp] theorem invMixColumns_mixColumns (s : Block) : invMixColumns (mixColumns s) = s := by
  rw [mixColumns_eq, invMixColumns_eq, mixWith_mixWith, mixWith_identity invMixMatrix_mul_mixMatrix]

@[simp] theorem mixColumns_invMixColumns (s : Block) : mixColumns (invMixColumns s) = s := by
  rw [mixColumns_eq, invMixColumns_eq, mixWith_mixWith, mixWith_identity mixMatrix_mul_invMixMatrix]

@[simp] theorem addRoundKey_addRoundKey (s rk : Block) : addRoundKey (addRoundKey s rk) rk = s :=
  s.xor_xor_self rk

theorem subBytes_get (s : Block) {i : Nat} (h : i < 16) : (subBytes s).get i = sbox (s.get i) :=
  Block.get_build _ h

theorem invSubBytes_get (s : Block) {i : Nat} (h : i < 16) :
    (invSubBytes s).get i = invSbox (s.get i) :=
  Block.get_build _ h

@[simp] theorem invSubBytes_subBytes (s : Block) : invSubBytes (subBytes s) = s :=
  Block.ext_get fun i hi => by rw [invSubBytes_get _ hi, subBytes_get _ hi, invSbox_sbox]

@[simp] theorem subBytes_invSubBytes (s : Block) : subBytes (invSubBytes s) = s :=
  Block.ext_get fun i hi => by rw [subBytes_get _ hi, invSubBytes_get _ hi, sbox_invSbox]

theorem shiftRows_get (s : Block) {r c : Nat} (hr : r < 4) (hc : c < 4) :
    (shiftRows s).get (r + 4 * c) = s.get (r + 4 * ((c + r) % 4)) := by
  rw [shiftRows, Block.get_build _ (by omega), show (r + 4 * c) % 4 = r by omega,
    show (r + 4 * c) / 4 = c by omega]

theorem invShiftRows_get (s : Block) {r c : Nat} (hr : r < 4) (hc : c < 4) :
    (invShiftRows s).get (r + 4 * c) = s.get (r + 4 * ((c + 4 - r) % 4)) := by
  rw [invShiftRows, Block.get_build _ (by omega), show (r + 4 * c) % 4 = r by omega,
    show (r + 4 * c) / 4 = c by omega]

/-- Two states with the same byte in every row and column are equal. -/
theorem Block.ext_rowColumn {a b : Block}
    (h : ∀ r < 4, ∀ c < 4, a.get (r + 4 * c) = b.get (r + 4 * c)) : a = b :=
  Block.ext_get fun i hi => by
    have hi' := h (i % 4) (by omega) (i / 4) (by omega)
    rwa [Nat.mod_add_div] at hi'

@[simp] theorem invShiftRows_shiftRows (s : Block) : invShiftRows (shiftRows s) = s :=
  Block.ext_rowColumn fun r hr c hc => by
    rw [invShiftRows_get _ hr hc, shiftRows_get _ hr (by omega),
      show ((c + 4 - r) % 4 + r) % 4 = c by omega]

@[simp] theorem shiftRows_invShiftRows (s : Block) : shiftRows (invShiftRows s) = s :=
  Block.ext_rowColumn fun r hr c hc => by
    rw [shiftRows_get _ hr hc, invShiftRows_get _ hr (by omega),
      show ((c + r) % 4 + 4 - r) % 4 = c by omega]

/-! ### The rounds (R98, R99) -/

/-- One full round (R98). -/
def encRound (rk s : Block) : Block := addRoundKey (mixColumns (shiftRows (subBytes s))) rk

/-- One round of the inverse cipher (R99). -/
def decRound (rk s : Block) : Block := invMixColumns (addRoundKey (invSubBytes (invShiftRows s)) rk)

section
variable (w : List Bytes)

@[simp] theorem encRounds_zero (r : Nat) (s : Block) : encRounds w 0 r s = s := rfl

@[simp] theorem decRounds_zero (s : Block) : decRounds w 0 s = s := rfl

/-- The last of `n + 1` rounds comes after the `n` before it. -/
theorem encRounds_succ (n r : Nat) (s : Block) :
    encRounds w (n + 1) r s = encRound (roundKey w (r + n)) (encRounds w n r s) := by
  induction n generalizing r s with
  | zero => rfl
  | succ n ih => rw [encRounds, ih, encRounds, Nat.add_assoc r 1 n, Nat.add_comm 1 n]

/-- The inverse rounds begin with the last. -/
theorem decRounds_succ (n : Nat) (s : Block) :
    decRounds w (n + 1) s = decRounds w n (decRound (roundKey w (n + 1)) s) := rfl

/-- The inverse rounds undo the rounds. They work on the state as the next round's SubBytes and
ShiftRows leave it. -/
theorem decRounds_encRounds (n : Nat) (s : Block) :
    decRounds w n (shiftRows (subBytes (encRounds w n 1 s))) = shiftRows (subBytes s) := by
  induction n with
  | zero => rfl
  | succ n ih => simp [encRounds_succ, decRounds_succ, encRound, decRound, Nat.add_comm 1 n, ih]

/-- The rounds undo the inverse rounds. -/
theorem encRounds_decRounds (n : Nat) (s : Block) :
    encRounds w n 1 (invSubBytes (invShiftRows (decRounds w n s))) = invSubBytes (invShiftRows s) := by
  induction n generalizing s with
  | zero => rfl
  | succ n ih => simp [encRounds_succ, decRounds_succ, encRound, decRound, Nat.add_comm 1 n, ih]

end

/-! ### The cipher and its inverse (R98 to R100) -/

theorem aesEnc_eq (k x : Block) :
    aesEnc k x = addRoundKey (shiftRows (subBytes (encRounds (expandKey k) 9 1
      (addRoundKey x (roundKey (expandKey k) 0))))) (roundKey (expandKey k) 10) := rfl

theorem aesDec_eq (k y : Block) :
    aesDec k y = addRoundKey (invSubBytes (invShiftRows (decRounds (expandKey k) 9
      (addRoundKey y (roundKey (expandKey k) 10))))) (roundKey (expandKey k) 0) := rfl

@[simp] theorem aesDec_aesEnc (k x : Block) : aesDec k (aesEnc k x) = x := by
  simp [aesEnc_eq, aesDec_eq, decRounds_encRounds]

@[simp] theorem aesEnc_aesDec (k y : Block) : aesEnc k (aesDec k y) = y := by
  simp [aesEnc_eq, aesDec_eq, encRounds_decRounds]

/-- Settles O22: the inverse rounds undo the rounds in both orders, so decryption is the inverse map. -/
theorem aesDecryptUndoesEncrypt : Obligations.AesDecryptUndoesEncrypt := fun k =>
  ⟨fun x => ⟨aesDec_aesEnc k x, aesEnc_aesDec k x⟩,
    Function.bijective_iff_has_inverse.2 ⟨aesDec k, aesDec_aesEnc k, aesEnc_aesDec k⟩⟩

/-! ### Known answers (95_test_vectors.md V2.4, V2.5) -/

theorem aesDec_eq_of_aesEnc_eq {k x y : Block} (h : aesEnc k x = y) : aesDec k y = x := by
  rw [← h, aesDec_aesEnc]

/-- Settles O60: the encryptions are evaluated; each decryption undoes one. -/
theorem aesKnownAnswers : Obligations.AesKnownAnswers := by
  refine ⟨fun v hv => ?_, aesDec_eq_of_aesEnc_eq (by decide +kernel)⟩
  have henc : aesEnc (Block.ofNat v.1) (Block.ofNat v.2.1) = Block.ofNat v.2.2 := by
    revert v
    decide +kernel
  exact ⟨henc, aesDec_eq_of_aesEnc_eq henc⟩

/-! ### The cipher as its rounds (R96 to R99) -/

theorem gfMul_eq_foldl (a b : Byte) :
    gfMul a b = (List.range 8).foldl
      (fun acc i => if b.getLsbD i then acc ^^^ xtime^[i] a else acc) 0 :=
  BitVec.zero_xor.symm.trans (foldl_eq_gfMulFrom 8 a b.toNat 0).symm

/-- The states of the inverse cipher by round number, from the one round `n` starts from down. -/
theorem decRounds_states (w : List Bytes) (n : Nat) (t : Block) :
    ∃ s : Nat → Block, s (n + 1) = t ∧
      (∀ r, 1 ≤ r → r < n + 1 → s r = decRound (roundKey w r) (s (r + 1))) ∧
      decRounds w n t = s 1 := by
  induction n generalizing t with
  | zero => exact ⟨fun _ => t, rfl, fun r _ _ => by omega, rfl⟩
  | succ n ih =>
    obtain ⟨s, hlast, hround, hfirst⟩ := ih (decRound (roundKey w (n + 1)) t)
    refine ⟨Function.update s (n + 2) t, Function.update_self .., fun r h1 hr => ?_, ?_⟩
    · rw [Function.update_of_ne (by omega)]
      obtain rfl | hlt : r = n + 1 ∨ r < n + 1 := by omega
      · rw [hlast, Function.update_self]
      · rw [hround r h1 hlt, Function.update_of_ne (by omega)]
    · rw [decRounds_succ, hfirst, Function.update_of_ne (by omega)]

/-- The four bytes of a column, from its row of a matrix each. -/
theorem mixWith_column (m : ByteMatrix) (s : Block) {c : Nat} (hc : c < 4) :
    (mixWith m s).get (4 * c) = mixByte s c (m 0 0) (m 0 1) (m 0 2) (m 0 3) ∧
    (mixWith m s).get (4 * c + 1) = mixByte s c (m 1 0) (m 1 1) (m 1 2) (m 1 3) ∧
    (mixWith m s).get (4 * c + 2) = mixByte s c (m 2 0) (m 2 1) (m 2 2) (m 2 3) ∧
    (mixWith m s).get (4 * c + 3) = mixByte s c (m 3 0) (m 3 1) (m 3 2) (m 3 3) :=
  ⟨mixWith_get m s (r := 0) (by decide) hc, mixWith_get m s (by decide) hc,
    mixWith_get m s (by decide) hc, mixWith_get m s (by decide) hc⟩

/-- Settles O59: the transformations byte by byte, and the states between the rounds of each cipher. -/
theorem aesIsBuiltFromItsRounds : Obligations.AesIsBuiltFromItsRounds := by
  refine ⟨fun a => rfl, gfMul_eq_foldl, fun s t i hi => Block.get_xor s t hi,
    fun s c hc => ⟨?_, ?_, ?_⟩, fun k x => ⟨⟨fun r => encRounds (expandKey k) r 1 (addRoundKey x (roundKey (expandKey k) 0)),
      rfl, fun r h1 _ => ?_, rfl⟩, ?_⟩⟩
  · exact fun r hr => ⟨subBytes_get s (by omega), invSubBytes_get s (by omega),
      shiftRows_get s hr hc, invShiftRows_get s hr hc⟩
  · simpa [mixColumns_eq, mixByte, mixMatrix, circulant] using mixWith_column mixMatrix s hc
  · rw [invMixColumns_eq]
    exact mixWith_column invMixMatrix s hc
  · obtain ⟨n, rfl⟩ := Nat.exists_eq_add_of_le' h1
    simp only [encRounds_succ, Nat.add_sub_cancel, Nat.add_comm 1 n]
    rfl
  · obtain ⟨s, hlast, hround, hfirst⟩ :=
      decRounds_states (expandKey k) 9 (addRoundKey x (roundKey (expandKey k) 10))
    exact ⟨s, hlast, hround, by rw [aesDec_eq, hfirst]⟩

end Sys2Proof

/-! ## Key expansion -/

namespace Sys2Proof

/-! ### Byte strings of a key (R7, R95) -/

theorem slice_append (b : Bytes) {i j k : Nat} (hij : i ≤ j) (hjk : j ≤ k) :
    slice b i j ++ slice b j k = slice b i k := by
  obtain ⟨m, rfl⟩ := Nat.exists_eq_add_of_le hij
  obtain ⟨n, rfl⟩ := Nat.exists_eq_add_of_le hjk
  simp only [slice, Nat.add_sub_cancel_left, Nat.add_assoc i m n, ← List.drop_drop, List.take_add]
  rw [show i + (m + n) - (i + m) = n by omega]

theorem xorBytes_getD {a b : Bytes} (h : a.length = b.length) (j : Nat) :
    (xorBytes a b).getD j 0 = a.getD j 0 ^^^ b.getD j 0 := by
  simp only [xorBytes, List.getD, List.getElem?_zipWith]
  obtain hj | hj := Nat.lt_or_ge j a.length
  · simp [hj, h ▸ hj]
  · simp [hj, h ▸ hj]

/-! ### The words (R95) -/

theorem expandFrom_length (n : Nat) (w : List Bytes) : (expandFrom n w).length = w.length + n := by
  induction n generalizing w with
  | zero => rfl
  | succ n ih => rw [expandFrom, ih]; simp; omega

/-- Expansion keeps the words it starts from. -/
theorem expandFrom_eq_append (n : Nat) (w : List Bytes) : ∃ new, expandFrom n w = w ++ new := by
  induction n generalizing w with
  | zero => exact ⟨[], w.append_nil.symm⟩
  | succ n ih =>
    obtain ⟨new, hnew⟩ := ih (w ++ [xorBytes (w.getD (w.length - 4) []) (keyTemp w w.length)])
    exact ⟨_ :: new, hnew.trans (List.append_cons ..).symm⟩

theorem getD_expandFrom (n : Nat) {w : List Bytes} {i : Nat} (h : i < w.length) :
    (expandFrom n w).getD i [] = w.getD i [] := by
  obtain ⟨new, hw⟩ := expandFrom_eq_append n w
  rw [hw, List.getD_append _ _ _ _ h]

/-- The `t` of R95 reads the word before. -/
theorem keyTemp_congr {w w' : List Bytes} {i : Nat} (h : w.getD (i - 1) [] = w'.getD (i - 1) []) :
    keyTemp w i = keyTemp w' i := by
  simp only [keyTemp, h]

/-- Each new word, from the words the whole expansion has before it. -/
theorem expandFrom_word {n : Nat} {w : List Bytes} {i : Nat} (h4 : 4 ≤ w.length) (hi : w.length ≤ i)
    (hn : i < w.length + n) :
    (expandFrom n w).getD i [] =
      xorBytes ((expandFrom n w).getD (i - 4) []) (keyTemp (expandFrom n w) i) := by
  induction n generalizing w with
  | zero => omega
  | succ n ih =>
    obtain rfl | hlt := Nat.eq_or_lt_of_le hi
    · have hkeep {k : Nat} (hk : k < w.length) := getD_expandFrom (n + 1) hk
      rw [hkeep (k := w.length - 4) (by omega), keyTemp_congr (hkeep (by omega)), expandFrom,
        getD_expandFrom n (by simp), List.getD_append_right _ _ _ _ le_rfl, Nat.sub_self]
      rfl
    · exact ih (by simp; omega) (by simpa using hlt) (by simp; omega)

/-- The four words a key begins with. -/
theorem expandKey_first (k : Block) :
    (expandKey k).getD 0 [] = slice k.bytes 0 4 ∧ (expandKey k).getD 1 [] = slice k.bytes 4 8 ∧
    (expandKey k).getD 2 [] = slice k.bytes 8 12 ∧ (expandKey k).getD 3 [] = slice k.bytes 12 16 :=
  ⟨getD_expandFrom 40 (by simp), getD_expandFrom 40 (by simp), getD_expandFrom 40 (by simp),
    getD_expandFrom 40 (by simp)⟩

theorem expandKey_word (k : Block) {i : Nat} (h4 : 4 ≤ i) (hi : i < 44) :
    (expandKey k).getD i [] =
      xorBytes ((expandKey k).getD (i - 4) []) (keyTemp (expandKey k) i) :=
  expandFrom_word (by simp) (by simpa using h4) (by simpa using hi)

theorem keyTemp_length {w : List Bytes} {i : Nat} (h : (w.getD (i - 1) []).length = 4) :
    (keyTemp w i).length = 4 := by
  simp only [keyTemp]
  split
  · obtain ⟨b0, b1, b2, b3, hw⟩ := List.length_eq_four.1 h
    rw [hw]
    rfl
  · exact h

theorem expandKey_word_length (k : Block) {i : Nat} (hi : i < 44) :
    ((expandKey k).getD i []).length = 4 := by
  induction i using Nat.strongRecOn with
  | _ i ih =>
    obtain hlt | h4 := Nat.lt_or_ge i 4
    · obtain ⟨h0, h1, h2, h3⟩ := expandKey_first k
      interval_cases i
      · rw [h0, slice_length, k.len]; rfl
      · rw [h1, slice_length, k.len]; rfl
      · rw [h2, slice_length, k.len]; rfl
      · rw [h3, slice_length, k.len]; rfl
    · rw [expandKey_word k h4 hi, xorBytes_length, ih (i - 4) (by omega) (by omega),
        keyTemp_length (ih (i - 1) (by omega) (by omega)), Nat.min_self]

/-- The `t` of R95 byte by byte: rotated, substituted, the round constant on its first byte. -/
theorem keyTemp_getD {w : List Bytes} {i j : Nat} (h : (w.getD (i - 1) []).length = 4) (hj : j < 4) :
    (keyTemp w i).getD j 0 =
      if i % 4 = 0 then
        sbox ((w.getD (i - 1) []).getD ((j + 1) % 4) 0) ^^^
          (if j = 0 then rcon.getD (i / 4 - 1) 0 else 0)
      else (w.getD (i - 1) []).getD j 0 := by
  simp only [keyTemp]
  obtain ⟨b0, b1, b2, b3, hw⟩ := List.length_eq_four.1 h
  rw [hw]
  split
  · rw [xorBytes_getD (by rfl)]
    interval_cases j <;> rfl
  · rfl

/-! ### The round keys (R95) -/

/-- A round key is the four words it is read from, when they have four bytes each. -/
theorem roundKey_bytes {w : List Bytes} {r : Nat}
    (h : ∀ c < 4, (w.getD (4 * r + c) []).length = 4) :
    (roundKey w r).bytes = w.getD (4 * r) [] ++ w.getD (4 * r + 1) [] ++ w.getD (4 * r + 2) [] ++
      w.getD (4 * r + 3) [] := by
  obtain ⟨a0, a1, a2, a3, h0⟩ := List.length_eq_four.1 (h 0 (by decide))
  obtain ⟨b0, b1, b2, b3, h1⟩ := List.length_eq_four.1 (h 1 (by decide))
  obtain ⟨c0, c1, c2, c3, h2⟩ := List.length_eq_four.1 (h 2 (by decide))
  obtain ⟨d0, d1, d2, d3, h3⟩ := List.length_eq_four.1 (h 3 (by decide))
  rw [Nat.add_zero] at h0
  simp only [roundKey, Block.build, List.range, List.range.loop, List.map, Nat.reduceDiv, Nat.reduceMod,
    Nat.add_zero, h0, h1, h2, h3]
  rfl

/-- Settles O21: the words of the expansion by their recurrence, and the round keys as four words. -/
theorem keyExpansionRecurrence : Obligations.KeyExpansionRecurrence := by
  intro k w roundConstant
  have hlen : ∀ i < 44, (w i).length = 4 := fun i hi => expandKey_word_length k hi
  have hrk : ∀ r < 11, (roundKey (expandKey k) r).bytes =
      w (4 * r) ++ w (4 * r + 1) ++ w (4 * r + 2) ++ w (4 * r + 3) :=
    fun r hr => roundKey_bytes fun c hc => hlen (4 * r + c) (by omega)
  have hkey : w 0 ++ w 1 ++ w 2 ++ w 3 = k.bytes := by
    obtain ⟨h0, h1, h2, h3⟩ := expandKey_first k
    simp only [w, h0, h1, h2, h3]
    rw [slice_append, slice_append, slice_append] <;> simp [slice]
  refine ⟨expandFrom_length 40 _, hlen, hkey, Block.ext_bytes ((hrk 0 (by decide)).trans hkey), hrk,
    fun i h4 hi j hj => ?_⟩
  have hprev : (w (i - 1)).length = 4 := hlen (i - 1) (by omega)
  have htemp := keyTemp_length hprev
  calc (w i).getD j 0 = (xorBytes (w (i - 4)) (keyTemp (expandKey k) i)).getD j 0 :=
        congrArg (·.getD j 0) (expandKey_word k h4 hi)
    _ = (w (i - 4)).getD j 0 ^^^ (keyTemp (expandKey k) i).getD j 0 :=
        xorBytes_getD ((hlen (i - 4) (by omega)).trans htemp.symm) j
    _ = _ := congrArg ((w (i - 4)).getD j 0 ^^^ ·) (keyTemp_getD hprev hj)

end Sys2Proof

/-! ## The register commands, and ECB there and back -/

namespace Sys2Proof.Machine

/-! ### Commands that touch registers only (R101, R102, R140, R142, R143, R160, R161, R253, R254) -/

theorem firstError_initCheck {s : State} (h : s.mode = .none) : firstError [initCheck s] = none := by
  rw [(initCheck_eq_none_iff s).2 h, firstError_cons_none, firstError_nil]

theorem firstError_useCheck {s : State} {m : Mode} (hm : m ≠ .none) (h : s.mode = m) :
    firstError [useCheck m s] = none := by
  rw [(useCheck_eq_none_iff hm s).2 h, firstError_cons_none, firstError_nil]

section
variable {s : State}

theorem exec_ecbInitEnc (h : s.mode = .none) :
    exec .ecbInitEnc s = .next (s.initAes .ecbEnc).finish := by
  unfold exec
  exact State.command_of_checks (firstError_initCheck h)

theorem exec_ecbInitDec (h : s.mode = .none) :
    exec .ecbInitDec s = .next (s.initAes .ecbDec).finish := by
  unfold exec
  exact State.command_of_checks (firstError_initCheck h)

theorem exec_ctrInit (h : s.mode = .none) :
    exec .ctrInit s = .next ((s.initAes .ctr).setCtr s.vecin).finish := by
  unfold exec
  exact State.command_of_checks (firstError_initCheck h)

theorem exec_cbcInitEnc (h : s.mode = .none) :
    exec .cbcInitEnc s = .next ((s.initAes .cbcEnc).setIv s.vecin).finish := by
  unfold exec
  exact State.command_of_checks (firstError_initCheck h)

theorem exec_cbcInitDec (h : s.mode = .none) :
    exec .cbcInitDec s = .next ((s.initAes .cbcDec).setIv s.vecin).finish := by
  unfold exec
  exact State.command_of_checks (firstError_initCheck h)

theorem exec_ctrSet (h : s.mode = .ctr) : exec .ctrSet s = .next (s.setCtr s.vecin).finish := by
  unfold exec
  exact State.command_of_checks (firstError_useCheck (by decide) h)

theorem exec_ctrAdd (h : s.mode = .ctr) (imm : Nat) :
    exec (.ctrAdd imm) s = .next (s.setCtr (addCounter s.ctr imm)).finish := by
  unfold exec
  exact State.command_of_checks (firstError_useCheck (by decide) h)

theorem exec_aesRelease : exec .aesRelease s = .next s.releaseAes.finish := by
  unfold exec
  exact State.command_of_checks firstError_nil

theorem exec_rsaRelease : exec .rsaRelease s = .next s.releaseRsa.finish := by
  unfold exec
  exact State.command_of_checks firstError_nil

end

/-- Settles O19: each command passes its one check, if it has one, and ends after its body. -/
theorem registerCommandsResult : Obligations.RegisterCommandsResult := fun _ =>
  ⟨fun h => ⟨exec_ecbInitEnc h, exec_ecbInitDec h, exec_ctrInit h, exec_cbcInitEnc h,
      exec_cbcInitDec h⟩,
    fun h => ⟨exec_ctrSet h, exec_ctrAdd h⟩, exec_aesRelease, exec_rsaRelease⟩

/-! ### ECB_DEC after ECB_ENC (R105) -/

/-- Memories that agree outside a buffer of `n` blocks and on each of its blocks agree everywhere. -/
theorem read_eq_of_blocks {a n : Nat} {m m' : Memory} (hout : sameOutside a (16 * n) m m')
    (hin : ∀ k < n, m'.readBlock (a + 16 * k) = m.readBlock (a + 16 * k)) (b : Nat) :
    m'.read b = m.read b := by
  by_cases hb : a ≤ b ∧ b < a + 16 * n
  · have hblock := congrArg (·.get ((b - a) % 16)) (hin ((b - a) / 16) (by omega))
    simp only [Memory.readBlock_get _ _ (show (b - a) % 16 < 16 by omega)] at hblock
    rwa [show a + 16 * ((b - a) / 16) + (b - a) % 16 = b by omega] at hblock
  · exact hout b (by omega)

theorem sameOutside.trans {a n : Nat} {m m' m'' : Memory} (h : sameOutside a n m m')
    (h' : sameOutside a n m' m'') : sameOutside a n m m'' :=
  fun b hb => (h' b hb).trans (h b hb)

/-- Two walks in place over the same blocks, the second with a cipher that undoes the first's, leave
every byte as it was. -/
theorem walkBlocks_ecb_inPlace {f g : Block → Block} (hgf : ∀ x, g (f x) = x) {src dst : Nat}
    (hbuf : src = dst) (n : Nat) (m : Memory) (b : Nat) :
    (walkBlocks (fetchBlock src) (ecbStep g) dst n 0
      (walkBlocks (fetchBlock src) (ecbStep f) dst n 0 m ()).1 ()).1.read b = m.read b := by
  subst hbuf
  have hframe (c : Block → Block) (m : Memory) :
      sameOutside src (16 * n) m (walkBlocks (fetchBlock src) (ecbStep c) src n 0 m ()).1 :=
    walkBlocks_frame _ _ src n 0 m ()
  have houtput (c : Block → Block) (m : Memory) {k : Nat} (hk : k < n) :
      (walkBlocks (fetchBlock src) (ecbStep c) src n 0 m ()).1.readBlock (src + 16 * k) =
        c (m.readBlock (src + 16 * k)) :=
    walkBlocks_output (ecbStep c) m () (.inl rfl) hk
  refine read_eq_of_blocks ((hframe f m).trans (hframe g _)) (fun k hk => ?_) b
  rw [houtput g _ hk, houtput f m hk, hgf]

/-- Settles O25: both commands do their body, and in place the second walk undoes the first. -/
theorem ecbRoundTripInPlace : Obligations.EcbRoundTripInPlace := by
  intro s hmode hbuf hlen hsrc
  have hdst : rangeOK s.backed s.dst.toNat s.len.toNat = true := hbuf ▸ hsrc
  have henc : exec .ecbEnc s = .next (ecbBody (aesEnc s.key) s).finish :=
    exec_ecb hlen hsrc hdst (.head _) hmode
  have hdec := exec_ecb (s := { (ecbBody (aesEnc s.key) s).finish with mode := .ecbDec })
    hlen hsrc hdst (.tail _ (.head _)) rfl
  exact ⟨_, _, henc, hdec, rfl, walkBlocks_ecb_inPlace (aesDec_aesEnc s.key)
    (congrArg BitVec.toNat hbuf) (s.len.toNat / 16) s.mem⟩

end Sys2Proof.Machine

/-! ## SHA-256

The padded message, the known answers and the SHA256 command (41_sha256.md). -/

namespace Sys2Proof

/-! ### Padding (R125) -/

/-- The `z` of R125: the number of zero bytes of the padding. -/
def shaZeros (m : Bytes) : Nat := (64 + 55 - m.length % 64) % 64

theorem shaZeros_lt (m : Bytes) : shaZeros m < 64 := Nat.mod_lt _ (by decide)

/-- R125: the four parts of the padded message. -/
theorem shaPad_eq (m : Bytes) :
    shaPad m = m ++ 0x80 :: (List.replicate (shaZeros m) 0 ++ bytesN 8 (8 * m.length)) := by
  simp [shaPad, shaZeros]

theorem shaPad_length (m : Bytes) : (shaPad m).length = m.length + 9 + shaZeros m := by
  simp [shaPad_eq]
  omega

/-- The zero bytes fill the last block. -/
theorem shaPad_length_mod (m : Bytes) : (shaPad m).length % 64 = 0 := by
  rw [shaPad_length, shaZeros]
  omega

theorem take_shaPad (m : Bytes) : (shaPad m).take m.length = m := by
  rw [shaPad_eq, List.take_left]

theorem shaPad_getD_length (m : Bytes) : (shaPad m).getD m.length 0 = 0x80 := by
  rw [shaPad_eq, List.getD_append_right _ _ _ _ le_rfl, Nat.sub_self, List.getD_cons_zero]

/-- Between the marker and the length in bits stand zeros only. -/
theorem shaPad_getD_zero {m : Bytes} {i : Nat} (hlow : m.length < i)
    (hhigh : i + 8 < (shaPad m).length) : (shaPad m).getD i 1 = 0 := by
  rw [shaPad_length] at hhigh
  obtain ⟨j, hj⟩ : ∃ j, i - m.length = j + 1 := ⟨i - m.length - 1, by omega⟩
  have hz : j < shaZeros m := by omega
  rw [shaPad_eq, List.getD_append_right _ _ _ _ hlow.le, hj, List.getD_cons_succ,
    List.getD_append _ _ _ _ (by simpa using hz), List.getD_replicate _ hz]

/-- The last eight bytes are the length in bits. -/
theorem drop_shaPad (m : Bytes) :
    (shaPad m).drop ((shaPad m).length - 8) = bytesN 8 (8 * m.length) := by
  have hsplit : shaPad m =
      (m ++ 0x80 :: List.replicate (shaZeros m) 0) ++ bytesN 8 (8 * m.length) := by
    rw [shaPad_eq, List.append_assoc, List.cons_append]
  have hlen : (shaPad m).length - 8 = (m ++ 0x80 :: List.replicate (shaZeros m) 0).length := by
    rw [hsplit, List.length_append, bytesN_length, Nat.add_sub_cancel]
  rw [hlen, hsplit, List.drop_left]

/-- Settles O26: each clause is a fact about one of the four parts of `shaPad_eq`. -/
theorem shaPaddingShape : Obligations.ShaPaddingShape := by
  intro m hm
  have hlen := shaPad_length m
  have hzeros := shaZeros_lt m
  have hbits : be ((shaPad m).drop ((shaPad m).length - 8)) = 8 * m.length := by
    rw [drop_shaPad, be_bytesN (by omega)]
  exact ⟨shaPad_length_mod m, by omega, by omega, take_shaPad m, shaPad_getD_length m,
    fun _ => shaPad_getD_zero, hbits⟩

/-! ### The digest (R127) -/

/-- R127: the digest is Compress folded over the blocks of the padded message. -/
theorem sha256_eq_foldl (m : Bytes) :
    sha256 m = ((List.range ((shaPad m).length / 64)).foldl
      (fun h i => shaCompress h (slice (shaPad m) (64 * i) (64 * i + 64))) shaH0).toBytes := rfl

/-- Settles O27: the fold is the definition of the digest, and the seven messages are run. -/
theorem shaKnownAnswers : Obligations.ShaKnownAnswers :=
  ⟨sha256_eq_foldl, by decide +kernel⟩

end Sys2Proof

namespace Sys2Proof.Machine

/-! ### The command (R128) -/

/-- SHA256 has no check but that of its two ranges, so with both in order it does its body. -/
theorem exec_sha256 {s : State} (hsrc : rangeOK s.backed s.src.toNat s.len.toNat = true)
    (hdst : rangeOK s.backed s.dst.toNat 32 = true) :
    exec .sha256 s = .next (s.setMem (s.mem.writeBytes s.dst.toNat
      (sha256 (s.mem.readBytes s.src.toNat s.len.toNat)))).finish := by
  have hranges : rangeCheck s [(s.src.toNat, s.len.toNat), (s.dst.toNat, 32)] = none :=
    (rangeCheck_eq_none_iff s _).2 (by simp [hsrc, hdst])
  unfold exec
  exact State.command_of_checks (by rw [hranges, firstError_cons_none, firstError_nil])

/-- What stands in a buffer of `n` bytes after `n` bytes are written to it. -/
theorem Memory.readBytes_writeBytes_of_length (m : Memory) (a : Nat) {v : Bytes} {n : Nat}
    (h : v.length = n) : (m.writeBytes a v).readBytes a n = v :=
  h ▸ m.readBytes_writeBytes a v

theorem Memory.sameOutside_writeBytes_of_length (m : Memory) (a : Nat) {v : Bytes} {n : Nat}
    (h : v.length = n) : sameOutside a n m (m.writeBytes a v) :=
  h ▸ m.read_writeBytes_outside a v

/-- Settles O28: the digest, taken from the memory before, is the one write of the command. -/
theorem sha256CommandResult : Obligations.Sha256CommandResult := fun s hsrc hdst =>
  have hlen := sha256_length (s.mem.readBytes s.src.toNat s.len.toNat)
  ⟨_, exec_sha256 hsrc hdst, rfl, s.mem.readBytes_writeBytes_of_length s.dst.toNat hlen,
    s.mem.sameOutside_writeBytes_of_length s.dst.toNat hlen⟩

end Sys2Proof.Machine

/-! ## Counter mode

The counter as an integer, the bytes and the counter of CTR_STREAM, and the laws the spec derives
from them (42_ctr.md R141 to R150). -/

namespace Sys2Proof

/-! ### The counter (R141) -/

/-- `bytes_16(v)` is `bytesN` at 16. -/
theorem Block.bytes_ofNat (v : Nat) : (Block.ofNat v).bytes = bytesN 16 v := rfl

theorem Block.toNat_ofNat (v : Nat) : (Block.ofNat v).toNat = v % 2 ^ 128 := by
  rw [Block.toNat, Block.bytes_ofNat, be_bytesN_mod, show 256 ^ 16 = 2 ^ 128 by norm_num]

/-- The loop of R141, on bytes from the least significant on, adds modulo `256^n`. -/
theorem be_reverse_addCarry (cs : Bytes) (v : Nat) :
    be (addCarry cs v).reverse = (be cs.reverse + v) % 256 ^ cs.length := by
  induction cs generalizing v with
  | nil => simp [addCarry, Nat.mod_one]
  | cons c cs ih =>
    have hlow : (be cs.reverse * 256 + c.toNat + v) % 256 = (c.toNat + v) % 256 := by omega
    have hhigh :
        (be cs.reverse * 256 + c.toNat + v) / 256 = be cs.reverse + (c.toNat + v) / 256 := by omega
    have hsnoc (xs : Bytes) (x : Byte) : be (xs ++ [x]) = be xs * 256 + x.toNat := by
      simp [be_append, be_cons]
    rw [addCarry, List.reverse_cons, List.reverse_cons, hsnoc, hsnoc, ih, List.length_cons,
      Nat.pow_succ', Nat.mod_mul, hlow, hhigh, BitVec.toNat_ofNat]
    omega

theorem toNat_addCounter (c : Block) (v : Nat) :
    (addCounter c v).toNat = (c.toNat + v) % 2 ^ 128 := by
  rw [Block.toNat, addCounter, be_reverse_addCarry, List.reverse_reverse, List.length_reverse,
    c.len]
  rfl

/-- A block is the counter value `n` when its integer is. -/
theorem Block.eq_ofNat_mod {b : Block} {n : Nat} (h : b.toNat = n % 2 ^ 128) :
    b = Block.ofNat (n % 2 ^ 128) :=
  Block.toNat_injective (by rw [Block.toNat_ofNat, Nat.mod_mod, h])

/-- The counter after `k` block operations (R147). -/
def counterAfter (c : Block) (k : Nat) : Block := (fun x => addCounter x 1)^[k] c

theorem counterAfter_succ (c : Block) (k : Nat) :
    counterAfter c (k + 1) = addCounter (counterAfter c k) 1 :=
  Function.iterate_succ_apply' _ k c

/-- `k` advances by one are one addition of `k` (R147). -/
theorem toNat_counterAfter (c : Block) (k : Nat) :
    (counterAfter c k).toNat = (c.toNat + k) % 2 ^ 128 := by
  induction k with
  | zero => exact (Nat.mod_eq_of_lt c.toNat_lt).symm
  | succ k ih =>
    rw [counterAfter_succ, toNat_addCounter, ih]
    omega

/-- Settles O29: every clause is read off the integer of the counter. -/
theorem addCounterAddsModulo : Obligations.AddCounterAddsModulo := by
  intro c
  have hzero : (addCounter c 0).toNat = c.toNat :=
    (toNat_addCounter c 0).trans (Nat.mod_eq_of_lt c.toNat_lt)
  refine ⟨fun v _ => Block.eq_ofNat_mod (toNat_addCounter c v), Block.toNat_injective hzero,
    Block.eq_ofNat_mod (toNat_counterAfter c 256), fun hmax => Block.toNat_injective ?_⟩
  rw [toNat_addCounter, hmax]
  rfl

end Sys2Proof

namespace Sys2Proof.Machine

/-! ### CTR_BLOCK (R144, R145) -/

/-- The checks of a counter-mode command over `n` bytes pass in MODE = CTR on ranges in order; with
KS = 1 no input range is asked for. -/
theorem firstError_ctrChecks {s : State} {ks : Bool} {n : Nat} (hmode : s.mode = .ctr)
    (hsrc : ks = false → rangeOK s.backed s.src.toNat n = true)
    (hdst : rangeOK s.backed s.dst.toNat n = true) :
    firstError [useCheck .ctr s, rangeCheck s (ctrRanges ks n s)] = none := by
  have hranges : rangeCheck s (ctrRanges ks n s) = none := by
    rw [rangeCheck_eq_none_iff]
    cases ks with
    | false => simp [ctrRanges, hsrc rfl, hdst]
    | true => simpa [ctrRanges] using hdst
  rw [(useCheck_eq_none_iff (by decide) s).2 hmode, hranges, firstError_cons_none,
    firstError_cons_none, firstError_nil]

/-- CTR_BLOCK writes its one block and moves the counter on once. -/
theorem exec_ctrBlock {s : State} {ks : Bool} (hmode : s.mode = .ctr)
    (hsrc : ks = false → rangeOK s.backed s.src.toNat 16 = true)
    (hdst : rangeOK s.backed s.dst.toNat 16 = true) :
    exec (.ctrBlock ks) s = .next ((s.setMem (s.mem.writeBlock s.dst.toNat
      (cryptBlock s.key s.ctr (fetchInput ks s.src.toNat s.mem 0)).1)).setCtr
        (addCounter s.ctr 1)).finish := by
  unfold exec
  exact State.command_of_checks (firstError_ctrChecks hmode hsrc hdst)

/-- R144, byte by byte: the encrypted counter, xor the input unless KS. -/
theorem cryptBlock_get (key c : Block) (ks : Bool) (src : Nat) (m : Memory) (k : Nat) {i : Nat}
    (hi : i < 16) : (cryptBlock key c (fetchInput ks src m k)).1.get i =
      (aesEnc key c).get i ^^^ (if ks then 0 else m.read (src + 16 * k + i)) := by
  rw [cryptBlock_fetchInput]
  cases ks <;> simp [hi]

/-- Settles O30: one write of sixteen bytes, whose input is read before it. -/
theorem ctrBlockResult : Obligations.CtrBlockResult := by
  intro s ks hmode hsrc hdst
  refine ⟨_, exec_ctrBlock hmode hsrc hdst, rfl, toNat_addCounter s.ctr 1, fun i hi => ?_,
    Memory.sameOutside_writeBytes_of_length _ _ (Block.length_bytes _)⟩
  simp only [State.finish_mem, State.setCtr_mem, State.setMem_mem]
  rw [Memory.read_writeBlock, if_pos (by omega), Nat.add_sub_cancel_left,
    cryptBlock_get _ _ _ _ _ _ hi]
  rfl

/-! ### The walk of CTR_STREAM over its full blocks (R146) -/

/-- One block of counter mode as a step on the block at SRC, which it ignores with KS = 1. -/
def ctrStep (ks : Bool) (key c x : Block) : Block × Block :=
  cryptBlock key c (if ks then none else some x)

/-- The walk of counter mode as a walk that fetches every block. -/
theorem walkBlocks_ctrStep (ks : Bool) (key : Block) (src dst n i : Nat) (m : Memory) (c : Block) :
    walkBlocks (fetchInput ks src) (cryptBlock key) dst n i m c =
      walkBlocks (fetchBlock src) (ctrStep ks key) dst n i m c := by
  induction n generalizing i m c with
  | zero => rfl
  | succ n ih => exact ih _ _ _

/-- The counter before block `k`, whatever the walk reads and writes. -/
theorem walkBlocks_ctr (fetch : Memory → Nat → Option Block) (key : Block) (dst k : Nat)
    (m : Memory) (c : Block) :
    (walkBlocks fetch (cryptBlock key) dst k 0 m c).2 = counterAfter c k := by
  induction k with
  | zero => rfl
  | succ k ih =>
    rw [walkBlocks_succ, counterAfter_succ, ← ih]
    rfl

theorem carryAt_ctrStep (ks : Bool) (key : Block) (src : Nat) (m : Memory) (c : Block) (k : Nat) :
    carryAt (ctrStep ks key) src m c k = counterAfter c k := by
  induction k with
  | zero => rfl
  | succ k ih =>
    rw [counterAfter_succ, ← ih]
    rfl

/-- Every byte of the full blocks, in place or on disjoint buffers. -/
theorem walkBlocks_ctr_read (ks : Bool) (key : Block) {src dst n : Nat}
    (hbuf : sameOrDisjoint src dst (16 * n)) (m : Memory) (c : Block) {k : Nat} (hk : k < 16 * n) :
    (walkBlocks (fetchInput ks src) (cryptBlock key) dst n 0 m c).1.read (dst + k) =
      (aesEnc key (counterAfter c (k / 16))).get (k % 16) ^^^
        (if ks then 0 else m.read (src + k)) := by
  have hi : k % 16 < 16 := Nat.mod_lt k (by decide)
  have hblock := walkBlocks_output (ctrStep ks key) m c hbuf (k := k / 16) (by omega)
  rw [← walkBlocks_ctrStep, carryAt_ctrStep] at hblock
  have hbyte := congrArg (·.get (k % 16)) hblock
  simp only [Memory.readBlock_get _ _ hi] at hbyte
  rw [Nat.add_assoc, Nat.div_add_mod] at hbyte
  have hget := cryptBlock_get key (counterAfter c (k / 16)) ks src m (k / 16) hi
  rw [Nat.add_assoc, Nat.div_add_mod] at hget
  exact hbyte.trans hget

/-- A walk from block `j` on is the walk from block 0 on over the rest of the buffers. -/
theorem walkBlocks_shift {σ : Type} (f : σ → Option Block → Block × σ) (ks : Bool)
    (src dst n j i : Nat) (m : Memory) (x : σ) :
    walkBlocks (fetchInput ks src) f dst n (j + i) m x =
      walkBlocks (fetchInput ks (src + 16 * j)) f (dst + 16 * j) n i m x := by
  have haddr (p i : Nat) : p + 16 * (j + i) = p + 16 * j + 16 * i := by omega
  induction n generalizing i m x with
  | zero => rfl
  | succ n ih =>
    have hfetch : fetchInput ks src m (j + i) = fetchInput ks (src + 16 * j) m i := by
      simp only [fetchInput, fetchBlock, haddr]
    rw [walkBlocks, walkBlocks, hfetch, haddr, Nat.add_assoc j i 1]
    exact ih _ _ _

/-! ### What CTR_STREAM leaves (R146) -/

/-- The tail bytes, byte by byte: the keystream, xor the input unless KS. -/
theorem tailBytes_getD (ks : Bool) (stream : Block) {r : Nat} (hr : r ≤ 16) {input : Bytes}
    (hin : input.length = r) {i : Nat} (hi : i < r) :
    (tailBytes ks stream r input).getD i 0 =
      stream.get i ^^^ (if ks then 0 else input.getD i 0) := by
  have htake : (stream.bytes.take r).getD i 0 = stream.get i := by
    simp [List.getD, hi, Block.get]
  cases ks with
  | true => simpa [tailBytes] using htake
  | false =>
    have hlen : (stream.bytes.take r).length = input.length := by simp [hr, hin]
    exact (xorBytes_getD hlen i).trans (congrArg (· ^^^ input.getD i 0) htake)

theorem Memory.readBytes_getD (m : Memory) (a : Nat) {n i : Nat} (h : i < n) :
    (m.readBytes a n).getD i 0 = m.read (a + i) := by
  rw [List.getD_eq_getElem _ _ (by simpa using h), Memory.readBytes_getElem]

/-- The memory and the counter that CTR_STREAM over `n` bytes leaves, as a function of the key, the
two addresses, and the memory and the counter it starts from. -/
def ctrStreamOut (ks : Bool) (key : Block) (src dst n : Nat) (m : Memory) (c : Block) :
    Memory × Block :=
  let w := walkBlocks (fetchInput ks src) (cryptBlock key) dst (n / 16) 0 m c
  if n % 16 = 0 then w
  else (w.1.writeBytes (dst + 16 * (n / 16)) (tailBytes ks (aesEnc key w.2) (n % 16)
    (w.1.readBytes (src + 16 * (n / 16)) (n % 16))), addCounter w.2 1)

theorem ctrStreamBody_eq_out (ks : Bool) (s : State) :
    ctrStreamBody ks s =
      (s.setMem (ctrStreamOut ks s.key s.src.toNat s.dst.toNat s.len.toNat s.mem s.ctr).1).setCtr
        (ctrStreamOut ks s.key s.src.toNat s.dst.toNat s.len.toNat s.mem s.ctr).2 := by
  by_cases h : s.len.toNat % 16 = 0
  · rw [ctrStreamBody_of_whole ks h, ctrStreamOut, if_pos h]
    rfl
  · rw [ctrStreamBody_of_tail ks h, ctrTail_eq, ctrStreamOut, if_neg h]
    rfl

/-- CTR_STREAM leaves the memory and the counter that `ctrStreamOut` says, and ends without an
error. -/
theorem exec_ctrStream_out {s : State} {ks : Bool} (hmode : s.mode = .ctr)
    (hsrc : ks = false → rangeOK s.backed s.src.toNat s.len.toNat = true)
    (hdst : rangeOK s.backed s.dst.toNat s.len.toNat = true) {w : Memory × Block}
    (hw : ctrStreamOut ks s.key s.src.toNat s.dst.toNat s.len.toNat s.mem s.ctr = w) :
    exec (.ctrStream ks) s = .next ((s.setMem w.1).setCtr w.2).finish := by
  rw [exec_ctrStream_body hmode hsrc hdst, ctrStreamBody_eq_out, hw]

section
variable (ks : Bool) (key : Block) (src dst : Nat) (m : Memory) (c : Block)

/-- On whole blocks CTR_STREAM is the walk. -/
theorem ctrStreamOut_blocks (q : Nat) : ctrStreamOut ks key src dst (16 * q) m c =
    walkBlocks (fetchInput ks src) (cryptBlock key) dst q 0 m c := by
  rw [ctrStreamOut, if_pos (by omega), Nat.mul_div_cancel_left q (by decide)]

theorem ctrStreamOut_zero : ctrStreamOut ks key src dst 0 m c = (m, c) :=
  ctrStreamOut_blocks ks key src dst m c 0

/-- With KS = 1 the SRC register does not matter. -/
theorem ctrStreamOut_keystream (src' n : Nat) :
    ctrStreamOut true key src dst n m c = ctrStreamOut true key src' dst n m c := rfl

/-- R147: one advance for each full block, and one for the tail. -/
theorem ctrStreamOut_ctr (n : Nat) : (ctrStreamOut ks key src dst n m c).2 =
    counterAfter c ((n + 15) / 16) := by
  by_cases h : n % 16 = 0
  · rw [ctrStreamOut, if_pos h, walkBlocks_ctr, show (n + 15) / 16 = n / 16 by omega]
  · rw [ctrStreamOut, if_neg h, walkBlocks_ctr, show (n + 15) / 16 = n / 16 + 1 by omega,
      counterAfter_succ]

/-- R149 on integers: the blocks before byte `16 j`, and then the rest of the buffers. -/
theorem ctrStreamOut_add (j b : Nat) : ctrStreamOut ks key src dst (16 * j + b) m c =
    ctrStreamOut ks key (src + 16 * j) (dst + 16 * j) b (ctrStreamOut ks key src dst (16 * j) m c).1
      (ctrStreamOut ks key src dst (16 * j) m c).2 := by
  have hdiv : (16 * j + b) / 16 = j + b / 16 := by omega
  have hmod : (16 * j + b) % 16 = b % 16 := by omega
  have haddr (p : Nat) : p + 16 * (j + b / 16) = p + 16 * j + 16 * (b / 16) := by omega
  have hwalk (m : Memory) (c : Block) :=
    walkBlocks_shift (cryptBlock key) ks src dst (b / 16) j 0 m c
  rw [ctrStreamOut_blocks, ctrStreamOut, ctrStreamOut]
  simp only [hdiv, hmod, haddr, walkBlocks_add, Nat.zero_add, ← hwalk, Nat.add_zero]

/-- Exactly the `n` bytes at DST change. -/
theorem ctrStreamOut_frame (n : Nat) :
    sameOutside dst n m (ctrStreamOut ks key src dst n m c).1 := by
  have hblocks := walkBlocks_frame_whole (fetchInput ks src) (cryptBlock key) dst n m c
  by_cases h : n % 16 = 0
  · rw [ctrStreamOut, if_pos h]
    rwa [Nat.mul_div_cancel' (Nat.dvd_of_mod_eq_zero h)] at hblocks
  · have hlen (m' : Memory) (stream : Block) := tailBytes_length ks stream (r := n % 16) (by omega)
      (m'.readBytes_length (src + 16 * (n / 16)) (n % 16))
    rw [ctrStreamOut, if_neg h]
    exact fun b hb => (Memory.sameOutside_writeBytes_of_length _ _ (hlen _ _) b (by omega)).trans
      (hblocks b (by omega))

variable {src dst}

/-- R146: every byte of the output, in place or on disjoint buffers. -/
theorem ctrStreamOut_read_of_buffers {n : Nat} (hbuf : sameOrDisjoint src dst n) {k : Nat}
    (hk : k < n) : (ctrStreamOut ks key src dst n m c).1.read (dst + k) =
      (aesEnc key (counterAfter c (k / 16))).get (k % 16) ^^^
        (if ks then 0 else m.read (src + k)) := by
  have hblocks : sameOrDisjoint src dst (16 * (n / 16)) := by
    obtain h | h | h := hbuf
    · exact .inl h
    · exact .inr (.inl (by omega))
    · exact .inr (.inr (by omega))
  have hread (hfull : k < 16 * (n / 16)) := walkBlocks_ctr_read ks key hblocks m c hfull
  by_cases h : n % 16 = 0
  · rw [ctrStreamOut, if_pos h, hread (by omega)]
  · have hr : n % 16 ≤ 16 := by omega
    have hin (m' : Memory) := m'.readBytes_length (src + 16 * (n / 16)) (n % 16)
    rw [ctrStreamOut, if_neg h, Memory.read_writeBytes, tailBytes_length ks _ hr (hin _)]
    by_cases hfull : k < 16 * (n / 16)
    · rw [if_neg (by omega), hread hfull]
    · have hpos : dst + k - (dst + 16 * (n / 16)) = k % 16 := by omega
      have hi : k % 16 < n % 16 := by omega
      have hsame : (walkBlocks (fetchInput ks src) (cryptBlock key) dst (n / 16) 0 m c).1.read
          (src + k) = m.read (src + k) := by
        refine walkBlocks_frame_whole _ _ dst n m c (src + k) ?_
        obtain h | h | h := hbuf <;> omega
      rw [if_pos (by omega), hpos, tailBytes_getD ks _ hr (hin _) hi, Memory.readBytes_getD _ _ hi,
        walkBlocks_ctr, show src + 16 * (n / 16) + k % 16 = src + k by omega, hsame,
        show n / 16 = k / 16 by omega]

variable {ks}

/-- R146, R147: every byte of the output, in place or on disjoint buffers, and with KS = 1 whatever
SRC: there the input may as well be taken to stand at DST. -/
theorem ctrStreamOut_read {n : Nat} (hbuf : ks = false → sameOrDisjoint src dst n) {k : Nat}
    (hk : k < n) : (ctrStreamOut ks key src dst n m c).1.read (dst + k) =
      (aesEnc key (Block.ofNat ((c.toNat + k / 16) % 2 ^ 128))).get (k % 16) ^^^
        (if ks then 0 else m.read (src + k)) := by
  rw [← Block.eq_ofNat_mod (toNat_counterAfter c (k / 16))]
  cases ks with
  | false => exact ctrStreamOut_read_of_buffers false key m c (hbuf rfl) hk
  | true =>
    rw [ctrStreamOut_keystream key src dst m c dst]
    exact ctrStreamOut_read_of_buffers true key m c (.inl rfl) hk

end

/-- Settles O32: the bytes and the counter that `ctrStreamOut` leaves. -/
theorem ctrStreamBytes : Obligations.CtrStreamBytes := by
  intro s ks hmode hsrc hdst
  refine ⟨_, exec_ctrStream_out hmode (fun hks => (hsrc hks).1) hdst rfl, rfl, ?_,
    fun k hk => ctrStreamOut_read s.key s.mem s.ctr (fun hks => (hsrc hks).2) hk⟩
  rw [State.finish_ctr, State.setCtr_ctr, ctrStreamOut_ctr, toNat_counterAfter]

/-! ### The laws of CTR_STREAM (R148 to R150) -/

theorem sameOutside.symm {a n : Nat} {m m' : Memory} (h : sameOutside a n m m') :
    sameOutside a n m' m := fun b hb => (h b hb).symm

/-- Memories that agree outside a buffer and on each of its bytes agree everywhere. -/
theorem read_eq_of_bytes {a n : Nat} {m m' : Memory} (hout : sameOutside a n m m')
    (hin : ∀ k < n, m'.read (a + k) = m.read (a + k)) (b : Nat) : m'.read b = m.read b := by
  by_cases hb : a ≤ b ∧ b < a + n
  · have hbyte := hin (b - a) (by omega)
    rwa [Nat.add_sub_cancel' hb.1] at hbyte
  · exact hout b (by omega)

/-- Two streams in place from one counter value leave every byte as it was: both xor each byte with
the same keystream byte. -/
theorem ctrStreamOut_inPlace (key : Block) {src dst : Nat} (hbuf : src = dst) (n : Nat) (m : Memory)
    (c : Block) (b : Nat) :
    (ctrStreamOut false key src dst n (ctrStreamOut false key src dst n m c).1 c).1.read b =
      m.read b := by
  subst hbuf
  refine read_eq_of_bytes ((ctrStreamOut_frame false key src src m c n).trans
    (ctrStreamOut_frame false key src src _ c n)) (fun k hk => ?_) b
  have hread (m : Memory) :=
    ctrStreamOut_read (src := src) (ks := false) key m c (fun _ => .inl rfl) hk
  rw [hread, hread, if_neg Bool.false_ne_true, if_neg Bool.false_ne_true, ← BitVec.xor_assoc,
    BitVec.xor_self, BitVec.zero_xor]

/-- Settles O34: the second command starts from the counter value of the first. -/
theorem ctrStreamRoundTripInPlace : Obligations.CtrStreamRoundTripInPlace := by
  intro s hmode hbuf hsrc
  have hdst : rangeOK s.backed s.dst.toNat s.len.toNat = true := hbuf ▸ hsrc
  have hback := ctrStreamOut_inPlace s.key (congrArg BitVec.toNat hbuf) s.len.toNat s.mem s.ctr
  have hctr := ctrStreamOut_ctr false s.key s.src.toNat s.dst.toNat s.mem s.ctr s.len.toNat
  generalize hw : ctrStreamOut false s.key s.src.toNat s.dst.toNat s.len.toNat s.mem s.ctr = w
    at hback hctr
  have hctr' := ctrStreamOut_ctr false s.key s.src.toNat s.dst.toNat w.1 s.ctr s.len.toNat
  generalize hw' : ctrStreamOut false s.key s.src.toNat s.dst.toNat s.len.toNat w.1 s.ctr = w'
    at hback hctr'
  have hsecond := exec_ctrStream_out (s := (s.setMem w.1).finish) hmode (fun _ => hsrc) hdst hw'
  exact ⟨_, _, exec_ctrStream_out hmode (fun _ => hsrc) hdst hw, hsecond, rfl,
    hctr'.trans hctr.symm, hback⟩

/-- A pointer moved on within a range in order does not wrap (R51). -/
theorem toNat_add_of_rangeOK {backed : List Region} {p : Word} {n a : Nat}
    (h : rangeOK backed p.toNat n = true) (ha : a < n) :
    (p + BitVec.ofNat 32 a).toNat = p.toNat + a := by
  obtain h0 | ⟨hn, -⟩ := (rangeOK_iff _ _ _).1 h
  · omega
  · rw [BitVec.toNat_add, BitVec.toNat_ofNat, Nat.add_mod_mod, Nat.mod_eq_of_lt (by omega)]

/-- The rest of a range in order is in order, at the pointer moved on. -/
theorem rangeOK_rest {backed : List Region} {p : Word} {n a : Nat}
    (h : rangeOK backed p.toNat n = true) (ha : a ≤ n) :
    rangeOK backed (p + BitVec.ofNat 32 a).toNat (n - a) = true := by
  obtain rfl | hlt := Nat.eq_or_lt_of_le ha
  · rw [Nat.sub_self, rangeOK_zero]
  · rw [toNat_add_of_rangeOK h hlt]
    exact rangeOK_sub h (by omega)

/-- R149 on registers: with both pointers moved on by whole blocks, the rest of the stream ends as
the one stream does. -/
theorem ctrStreamOut_rest {backed : List Region} (ks : Bool) (key : Block) {src dst : Word}
    {n a : Nat} (ha : a % 16 = 0) (hle : a ≤ n)
    (hsrc : ks = false → rangeOK backed src.toNat n = true)
    (hdst : rangeOK backed dst.toNat n = true) (m : Memory) (c : Block) :
    ctrStreamOut ks key (src + BitVec.ofNat 32 a).toNat (dst + BitVec.ofNat 32 a).toNat (n - a)
        (ctrStreamOut ks key src.toNat dst.toNat a m c).1
        (ctrStreamOut ks key src.toNat dst.toNat a m c).2 =
      ctrStreamOut ks key src.toNat dst.toNat n m c := by
  obtain rfl | hlt := Nat.eq_or_lt_of_le hle
  · rw [Nat.sub_self, ctrStreamOut_zero]
  · obtain ⟨j, rfl⟩ := Nat.dvd_of_mod_eq_zero ha
    obtain ⟨b, rfl⟩ := Nat.exists_eq_add_of_le hle
    rw [Nat.add_sub_cancel_left, toNat_add_of_rangeOK hdst hlt, ctrStreamOut_add]
    cases ks with
    | false => rw [toNat_add_of_rangeOK (hsrc rfl) hlt]
    | true => exact ctrStreamOut_keystream key _ _ _ _ _ b

/-- Settles O33: the walk over the blocks of the first command goes on in the second. -/
theorem ctrStreamSplitsAtBlocks : Obligations.CtrStreamSplitsAtBlocks := by
  intro s ks a hmode ha hle hsrc hdst
  have hlen : (BitVec.ofNat 32 a).toNat = a := by
    rw [BitVec.toNat_ofNat, Nat.mod_eq_of_lt (hle.trans_lt s.len.isLt)]
  have hrest : (s.len - BitVec.ofNat 32 a).toNat = s.len.toNat - a := by
    rw [BitVec.toNat_sub_of_le (by rw [BitVec.le_def, hlen]; exact hle), hlen]
  have hhead {p : Word} (h : rangeOK s.backed p.toNat s.len.toNat = true) :
      rangeOK s.backed p.toNat (BitVec.ofNat 32 a).toNat = true :=
    rangeOK_sub (i := 0) h (by omega)
  have htail {p : Word} (h : rangeOK s.backed p.toNat s.len.toNat = true) :
      rangeOK s.backed (p + BitVec.ofNat 32 a).toNat (s.len - BitVec.ofNat 32 a).toNat = true := by
    rw [hrest]
    exact rangeOK_rest h hle
  have hout := ctrStreamOut_rest ks s.key ha hle hsrc hdst s.mem s.ctr
  generalize hw : ctrStreamOut ks s.key s.src.toNat s.dst.toNat s.len.toNat s.mem s.ctr = w at hout
  generalize hw₁ : ctrStreamOut ks s.key s.src.toNat s.dst.toNat a s.mem s.ctr = w₁ at hout
  rw [← hlen] at hw₁
  rw [← hrest] at hout
  refine ⟨_, _, _, exec_ctrStream_out hmode hsrc hdst hw,
    exec_ctrStream_out ?_ (fun h => hhead (hsrc h)) (hhead hdst) hw₁,
    exec_ctrStream_out ?_ (fun h => htail (hsrc h)) (htail hdst) hout, rfl, rfl, rfl, rfl, rfl⟩
  · exact hmode
  · exact hmode

/-- Settles O35: the two modes write the same bytes where the input bytes are zero. -/
theorem keystreamOnlyEqualsZeroInput : Obligations.KeystreamOnlyEqualsZeroInput := by
  intro s hmode
  refine ⟨fun hsrc hdst hbuf hzero => ?_, fun hsrc hdst hzero => ?_⟩
  · refine ⟨_, _, exec_ctrStream_out hmode (fun _ => hsrc) hdst rfl,
      exec_ctrStream_out hmode (fun _ => hsrc) hdst rfl, rfl, rfl,
      (ctrStreamOut_ctr ..).trans (ctrStreamOut_ctr ..).symm,
      read_eq_of_bytes (sameOutside.trans (ctrStreamOut_frame false _ _ _ _ _ _).symm
        (ctrStreamOut_frame true _ _ _ _ _ _)) fun k hk => ?_⟩
    have hread (ks : Bool) := ctrStreamOut_read (ks := ks) s.key s.mem s.ctr (fun _ => hbuf) hk
    refine (hread true).trans (Eq.trans ?_ (hread false).symm)
    simp [hzero k hk]
  · obtain ⟨t, ht, htok, htctr, htread, htout⟩ := ctrBlockResult s true hmode (fun _ => hsrc) hdst
    obtain ⟨u, hu, huok, huctr, huread, huout⟩ := ctrBlockResult s false hmode (fun _ => hsrc) hdst
    refine ⟨t, u, ht, hu, by rw [htok], by rw [huok],
      Block.toNat_injective (htctr.trans huctr.symm),
      read_eq_of_bytes (huout.symm.trans htout) fun k hk => ?_⟩
    rw [htread k hk, huread k hk]
    simp [hzero k hk]

end Sys2Proof.Machine

/-! ## The laws of the CBC chain (R165, R166) -/

namespace Sys2Proof.Machine

/-- The two CBC commands: the MODE each runs in, and what it does with one block under a key. -/
def cbcEngines : List (Mode × Instr × (Block → Block → Block → Block × Block)) :=
  [(.cbcEnc, .cbcEnc, cbcEncStep), (.cbcDec, .cbcDec, cbcDecStep)]

/-- A CBC command in its MODE, on whole blocks within backed memory, leaves the memory and the IV of
its walk, and ends without an error. -/
theorem exec_cbc_walk {p : Mode × Instr × (Block → Block → Block → Block × Block)}
    (hp : p ∈ cbcEngines) {s : State} (hmode : s.mode = p.1) (hlen : s.len.toNat % 16 = 0)
    (hsrc : rangeOK s.backed s.src.toNat s.len.toNat = true)
    (hdst : rangeOK s.backed s.dst.toNat s.len.toNat = true) {w : Memory × Block}
    (hw : walkBlocks (fetchBlock s.src.toNat) (p.2.2 s.key) s.dst.toNat (s.len.toNat / 16) 0
      s.mem s.iv = w) :
    exec p.2.1 s = .next ((s.setMem w.1).setIv w.2).finish := by
  subst hw
  obtain rfl | rfl : p = _ ∨ p = _ := by simpa [cbcEngines] using hp
  · exact exec_cbcEnc_body hlen hsrc hdst hmode
  · exact exec_cbcDec_body hlen hsrc hdst hmode

/-! ### One command or two (R165) -/

/-- What a walk does to an input before it uses it may be taken for part of its block function. -/
theorem walkBlocks_map_fetch {σ α β : Type} (fetch : Memory → Nat → α) (h : α → β)
    (f : σ → β → Block × σ) (dst n i : Nat) (m : Memory) (x : σ) :
    walkBlocks (fun m i => h (fetch m i)) f dst n i m x =
      walkBlocks fetch (fun x a => f x (h a)) dst n i m x := by
  induction n generalizing i m x with
  | zero => rfl
  | succ n ih => exact ih _ _ _

section
variable {σ : Type} (f : σ → Block → Block × σ)

/-- A walk that fetches every block is one with an input that is always there. -/
theorem walkBlocks_fetchBlock (src dst n i : Nat) (m : Memory) (x : σ) :
    walkBlocks (fetchBlock src) f dst n i m x =
      walkBlocks (fetchInput false src) (fun x b => f x (b.getD Block.zeros)) dst n i m x :=
  walkBlocks_map_fetch (fetchInput false src) (·.getD Block.zeros) f dst n i m x

/-- A walk of `j + n` blocks is one of `j` blocks and then one of `n` blocks over the rest of the
buffers. -/
theorem walkBlocks_split (src dst j n : Nat) (m : Memory) (x : σ) :
    walkBlocks (fetchBlock src) f dst (j + n) 0 m x =
      walkBlocks (fetchBlock (src + 16 * j)) f (dst + 16 * j) n 0
        (walkBlocks (fetchBlock src) f dst j 0 m x).1
        (walkBlocks (fetchBlock src) f dst j 0 m x).2 := by
  rw [walkBlocks_add, Nat.add_comm 0 j]
  simp only [walkBlocks_fetchBlock, walkBlocks_shift]

/-- R165 on registers: with both pointers moved on by whole blocks, the walk over the rest of the
buffers ends as the one walk does. -/
theorem walkBlocks_rest {backed : List Region} {src dst : Word} {n a : Nat} (ha : a % 16 = 0)
    (hle : a ≤ n) (hsrc : rangeOK backed src.toNat n = true)
    (hdst : rangeOK backed dst.toNat n = true) (m : Memory) (x : σ) :
    walkBlocks (fetchBlock (src + BitVec.ofNat 32 a).toNat) f (dst + BitVec.ofNat 32 a).toNat
        ((n - a) / 16) 0
        (walkBlocks (fetchBlock src.toNat) f dst.toNat (a / 16) 0 m x).1
        (walkBlocks (fetchBlock src.toNat) f dst.toNat (a / 16) 0 m x).2 =
      walkBlocks (fetchBlock src.toNat) f dst.toNat (n / 16) 0 m x := by
  obtain rfl | hlt := Nat.eq_or_lt_of_le hle
  · rw [Nat.sub_self, Nat.zero_div, walkBlocks_zero]
  · have hblocks : n / 16 = a / 16 + (n - a) / 16 := by omega
    rw [toNat_add_of_rangeOK hsrc hlt, toNat_add_of_rangeOK hdst hlt, hblocks, walkBlocks_split,
      Nat.mul_div_cancel' (Nat.dvd_of_mod_eq_zero ha)]

end

section
variable {w : Word} {a : Nat} (h : a ≤ w.toNat)
include h

/-- A length no larger than one that a register holds fits the register too. -/
theorem toNat_ofNat_of_le : (BitVec.ofNat 32 a).toNat = a := by
  rw [BitVec.toNat_ofNat, Nat.mod_eq_of_lt (h.trans_lt w.isLt)]

theorem toNat_sub_ofNat_of_le : (w - BitVec.ofNat 32 a).toNat = w.toNat - a := by
  have hle : BitVec.ofNat 32 a ≤ w := by rwa [BitVec.le_def, toNat_ofNat_of_le h]
  rw [BitVec.toNat_sub_of_le hle, toNat_ofNat_of_le h]

end

/-- R165 for one engine: the walk of the first command goes on in the second. -/
theorem exec_cbc_split {p : Mode × Instr × (Block → Block → Block → Block × Block)}
    (hp : p ∈ cbcEngines) {s : State} {a : Nat} (ha : a % 16 = 0) (hlen : s.len.toNat % 16 = 0)
    (hle : a ≤ s.len.toNat) (hsrc : rangeOK s.backed s.src.toNat s.len.toNat = true)
    (hdst : rangeOK s.backed s.dst.toNat s.len.toNat = true) (hmode : s.mode = p.1) :
    ∃ t u v, exec p.2.1 s = .next t ∧
      exec p.2.1 { s with len := BitVec.ofNat 32 a } = .next u ∧
      exec p.2.1 { u with
        src := u.src + BitVec.ofNat 32 a, dst := u.dst + BitVec.ofNat 32 a,
        len := s.len - BitVec.ofNat 32 a } = .next v ∧
      t.ok = true ∧ u.ok = true ∧ v.ok = true ∧ v.mem = t.mem ∧ v.iv = t.iv := by
  have hhead : (BitVec.ofNat 32 a).toNat = a := toNat_ofNat_of_le hle
  have hrest : (s.len - BitVec.ofNat 32 a).toNat = s.len.toNat - a := toNat_sub_ofNat_of_le hle
  have hhead_ok {q : Word} (h : rangeOK s.backed q.toNat s.len.toNat = true) :
      rangeOK s.backed q.toNat (BitVec.ofNat 32 a).toNat = true :=
    rangeOK_sub (i := 0) h (by omega)
  have hrest_ok {q : Word} (h : rangeOK s.backed q.toNat s.len.toNat = true) :
      rangeOK s.backed (q + BitVec.ofNat 32 a).toNat (s.len - BitVec.ofNat 32 a).toNat = true := by
    rw [hrest]
    exact rangeOK_rest h hle
  have hwalk := walkBlocks_rest (p.2.2 s.key) ha hle hsrc hdst s.mem s.iv
  generalize hw : walkBlocks (fetchBlock s.src.toNat) (p.2.2 s.key) s.dst.toNat (s.len.toNat / 16) 0
    s.mem s.iv = w at hwalk
  generalize hw₁ : walkBlocks (fetchBlock s.src.toNat) (p.2.2 s.key) s.dst.toNat (a / 16) 0
    s.mem s.iv = w₁ at hwalk
  rw [← hhead] at hw₁
  rw [← hrest] at hwalk
  refine ⟨_, _, _, exec_cbc_walk hp hmode hlen hsrc hdst hw,
    exec_cbc_walk hp ?_ ?_ (hhead_ok hsrc) (hhead_ok hdst) hw₁,
    exec_cbc_walk hp ?_ ?_ (hrest_ok hsrc) (hrest_ok hdst) hwalk, rfl, rfl, rfl, rfl, rfl⟩
  · exact hmode
  · exact hhead.symm ▸ ha
  · exact hmode
  · simp only [hrest]
    omega

/-- Settles O38: the two pairs of the statement are the engines', and each engine's walk splits. -/
theorem cbcChainRunsAcrossCommands : Obligations.CbcChainRunsAcrossCommands :=
  fun _ _ ha hlen hle hsrc hdst =>
    List.forall_mem_map (f := fun p => (p.1, p.2.1)) (l := cbcEngines) |>.2 fun _ hp hmode =>
      exec_cbc_split hp ha hlen hle hsrc hdst hmode

/-! ### CBC_DEC after CBC_ENC (R166) -/

section
variable (f : Block → Block → Block × Block) (key iv : Block) (src n : Nat) (m : Memory)

/-- The memory and the IV that a CBC command leaves in place over `n` blocks, as a function of the
IV and the memory it starts from. -/
def cbcInPlace : Memory × Block := walkBlocks (fetchBlock src) f src n 0 m iv

theorem cbcInPlace_frame : sameOutside src (16 * n) m (cbcInPlace f iv src n m).1 :=
  walkBlocks_frame (fetchBlock src) f src n 0 m iv

theorem cbcInPlace_iv : (cbcInPlace f iv src n m).2 = carryAt f src m iv n :=
  walkBlocks_carry f m iv (.inl rfl) le_rfl

variable {n}

theorem readBlock_cbcInPlace {k : Nat} (hk : k < n) :
    (cbcInPlace f iv src n m).1.readBlock (src + 16 * k) =
      (f (carryAt f src m iv k) (m.readBlock (src + 16 * k))).1 :=
  walkBlocks_output f m iv (.inl rfl) hk

/-- Over what CBC_ENC wrote, CBC_DEC carries the same chaining values from block to block: the
ciphertext block it reads is the one CBC_ENC produced (R163, R164). -/
theorem carryAt_cbcDecStep_of_cbcEnc {k : Nat} (hk : k ≤ n) :
    carryAt (cbcDecStep key) src (cbcInPlace (cbcEncStep key) iv src n m).1 iv k =
      carryAt (cbcEncStep key) src m iv k := by
  rw [carryAt_cbcDecStep]
  cases k with
  | zero => rfl
  | succ k => exact readBlock_cbcInPlace (cbcEncStep key) iv src m hk

/-- One block: what CBC_ENC makes of it, CBC_DEC takes back under the same chaining value (R100). -/
theorem cbcDecStep_cbcEncStep (x : Block) :
    (cbcDecStep key iv (cbcEncStep key iv x).1).1 = x := by
  rw [cbcDecStep, cbcEncStep, aesDec_aesEnc, Block.xor_xor_self]

/-- CBC_DEC after CBC_ENC in place ends with the same IV. -/
theorem cbcInPlace_dec_enc_iv (n : Nat) :
    (cbcInPlace (cbcDecStep key) iv src n (cbcInPlace (cbcEncStep key) iv src n m).1).2 =
      (cbcInPlace (cbcEncStep key) iv src n m).2 := by
  rw [cbcInPlace_iv, cbcInPlace_iv, carryAt_cbcDecStep_of_cbcEnc key iv src m le_rfl]

/-- CBC_DEC after CBC_ENC in place leaves every byte as it was. -/
theorem cbcInPlace_dec_enc_read (n b : Nat) :
    (cbcInPlace (cbcDecStep key) iv src n (cbcInPlace (cbcEncStep key) iv src n m).1).1.read b =
      m.read b := by
  refine read_eq_of_blocks ((cbcInPlace_frame (cbcEncStep key) iv src n m).trans
    (cbcInPlace_frame (cbcDecStep key) iv src n _)) (fun k hk => ?_) b
  rw [readBlock_cbcInPlace _ _ _ _ hk, carryAt_cbcDecStep_of_cbcEnc key iv src m hk.le,
    readBlock_cbcInPlace _ _ _ _ hk, cbcDecStep_cbcEncStep]

end

/-- A CBC command in place leaves the memory and the IV that `cbcInPlace` says. -/
theorem exec_cbc_inPlace {p : Mode × Instr × (Block → Block → Block → Block × Block)}
    (hp : p ∈ cbcEngines) {s : State} (hmode : s.mode = p.1) (hbuf : s.src = s.dst)
    (hlen : s.len.toNat % 16 = 0) (hsrc : rangeOK s.backed s.src.toNat s.len.toNat = true)
    {w : Memory × Block}
    (hw : cbcInPlace (p.2.2 s.key) s.iv s.src.toNat (s.len.toNat / 16) s.mem = w) :
    exec p.2.1 s = .next ((s.setMem w.1).setIv w.2).finish := by
  refine exec_cbc_walk hp hmode hlen hsrc (hbuf ▸ hsrc) ?_
  rw [← hbuf]
  exact hw

/-- Settles O39: both commands do their walk in place, from one starting IV. -/
theorem cbcRoundTripInPlace : Obligations.CbcRoundTripInPlace := by
  intro s hmode hbuf hlen hsrc
  have hiv := cbcInPlace_dec_enc_iv s.key s.iv s.src.toNat s.mem (s.len.toNat / 16)
  have hread := cbcInPlace_dec_enc_read s.key s.iv s.src.toNat s.mem (s.len.toNat / 16)
  generalize hw : cbcInPlace (cbcEncStep s.key) s.iv s.src.toNat (s.len.toNat / 16) s.mem = w
    at hiv hread
  generalize hw' : cbcInPlace (cbcDecStep s.key) s.iv s.src.toNat (s.len.toNat / 16) w.1 = w'
    at hiv hread
  have henc := exec_cbc_inPlace (.head _) hmode hbuf hlen hsrc hw
  have hdec := exec_cbc_inPlace (p := (.cbcDec, .cbcDec, cbcDecStep)) (.tail _ (.head _))
    (s := { ((s.setMem w.1).setIv w.2).finish with mode := .cbcDec, iv := s.iv })
    rfl hbuf hlen hsrc hw'
  exact ⟨_, _, henc, hdec, rfl, hiv, hread⟩

end Sys2Proof.Machine

/-! ## Big integers

The modular inverse (44_bigint_montgomery.md R188), the Montgomery product as one reduction shared by
R183 and R184, and the exponentiation of R187 as an invariant of its accumulator. -/

namespace Sys2Proof

/-! ### The modular inverse exists where it can (R188) -/

/-- With fuel above the first remainder the extended Euclidean loop ends at the gcd. -/
theorem euclid_fst_eq_gcd (fuel r0 r1 : Nat) (t0 t1 : Int) (h : r1 < fuel) :
    (euclid fuel r0 r1 t0 t1).1 = Nat.gcd r0 r1 := by
  induction fuel generalizing r0 r1 t0 t1 with
  | zero => omega
  | succ fuel ih =>
    rw [euclid]
    split
    case isTrue hr => rw [hr, Nat.gcd_zero_right]
    case isFalse hr =>
      have hrem : r0 - r0 / r1 * r1 = r0 % r1 := by rw [Nat.mod_eq_sub_div_mul]
      have hlt : r0 % r1 < r1 := Nat.mod_lt r0 (Nat.pos_of_ne_zero hr)
      rw [hrem, ih _ _ _ _ (by omega), Nat.gcd_comm, ← Nat.gcd_rec, Nat.gcd_comm]

/-- R188: the two reasons for which `ModInv(a, m)` is undefined. -/
theorem modInv_eq_none_iff {a m : Nat} :
    modInv a m = none ↔ m < 2 ∨ Nat.gcd (a % m) m ≠ 1 := by
  by_cases hm : m < 2
  · simp [modInv, hm]
  · have hlt : a % m < m + 1 := (Nat.mod_lt a (by omega)).trans m.lt_succ_self
    simp [modInv, hm, euclid_fst_eq_gcd _ _ _ _ _ hlt, Nat.gcd_comm m]

/-- `ModInv(a, m)` is defined where the argument is coprime to a modulus of at least 2. -/
theorem exists_modInv_eq_some {a m : Nat} (hm : 2 ≤ m) (h : Nat.gcd (a % m) m = 1) :
    ∃ x, modInv a m = some x :=
  Option.ne_none_iff_exists'.1 fun hnone => (modInv_eq_none_iff.1 hnone).elim (by omega) (· h)

/-- Settles O40: the loop keeps Bézout's congruence and ends at the gcd, and a unit cancels. -/
theorem modInvIsTheInverse : Obligations.ModInvIsTheInverse := by
  refine fun a m => ⟨fun hm hgcd => ?_, modInv_eq_none_iff.2⟩
  obtain ⟨x, hx⟩ := exists_modInv_eq_some hm hgcd
  obtain ⟨hlt, hinv⟩ := modInv_spec hx
  rw [mul_comm] at hinv
  have hcop : Nat.gcd m a = 1 := by rw [Nat.gcd_rec, hgcd]
  exact ⟨x, hx, hlt, hinv, fun y hy hyinv =>
    (Nat.ModEq.cancel_left_of_coprime hcop (hyinv.trans hinv.symm)).eq_of_lt_of_lt hy hlt⟩

/-! ### NPRIME (R182) -/

/-- An odd modulus is coprime to every power of two. -/
theorem coprime_two_pow_of_odd {n : Nat} (hn : n % 2 = 1) (k : Nat) : Nat.Coprime n (2 ^ k) :=
  (Nat.coprime_two_right.2 (Nat.odd_iff.2 hn)).pow_right k

theorem montNPrime_lt {r : Nat} (hr : 0 < r) (n : Nat) : montNPrime r n < r := by
  rw [montNPrime]
  split
  · exact hr
  · exact Nat.mod_lt _ hr

/-- R182: `NPRIME` is `−N⁻¹` modulo the radix. -/
theorem mul_montNPrime_add_one {r n : Nat} (hr : 2 ≤ r) (hn : Nat.Coprime n r) :
    n * montNPrime r n + 1 ≡ 0 [MOD r] := by
  obtain ⟨x, hx⟩ := exists_modInv_eq_some hr (by rwa [← Nat.gcd_rec, Nat.gcd_comm])
  obtain ⟨hlt, hinv⟩ := modInv_spec hx
  have hnp : montNPrime r n = (r - x) % r := by rw [montNPrime, hx]
  calc n * montNPrime r n + 1
    _ ≡ n * (r - x) + x * n [MOD r] := hnp ▸ ((Nat.mod_modEq _ r).mul_left n).add hinv.symm
    _ = n * r := by rw [mul_comm x, ← mul_add, Nat.sub_add_cancel hlt.le]
    _ ≡ 0 [MOD r] := Nat.modEq_zero_iff_dvd.2 (Dvd.intro_left n rfl)

/-- The number that R182 asks of `NPRIME` is the only one below the radix. -/
theorem eq_of_mul_add_one_modEq_zero {r n x y : Nat} (hn : Nat.Coprime n r) (hx : x < r) (hy : y < r)
    (hxz : n * x + 1 ≡ 0 [MOD r]) (hyz : n * y + 1 ≡ 0 [MOD r]) : x = y :=
  have hmul : n * x ≡ n * y [MOD r] := (hxz.trans hyz.symm).add_right_cancel' 1
  (Nat.ModEq.cancel_left_of_coprime hn.symm hmul).eq_of_lt_of_lt hx hy

/-! ### The Montgomery reduction (R183, R184)

Both multipliers add the multiple of `n` that makes their sum a multiple of the radix, and divide by
it: the parallel one once by `2^2048`, the word-serial one by `2^w` at every word. -/

/-- `(T + m·N) / R` for `m = (T mod R)·NPRIME mod R`, the middle of R183 and of each turn of R184. -/
def montReduce (r np n t : Nat) : Nat := (t + t % r * np % r * n) / r

theorem montMul_eq_ite (r np n a b : Nat) :
    montMul r np n a b =
      if n ≤ montReduce r np n (a * b) then montReduce r np n (a * b) - n
      else montReduce r np n (a * b) := rfl

theorem montMulLoop_succ (w n0 n a b words i t : Nat) :
    montMulLoop w n0 n a b (words + 1) i t =
      montMulLoop w n0 n a b words (i + 1)
        (montReduce (2 ^ w) n0 n (t + a / 2 ^ (w * i) % 2 ^ w * b)) := rfl

/-- The reduction multiplies by `R⁻¹` modulo `n`: its division by the radix is exact. -/
theorem montReduce_mul_modEq {r np n : Nat} (hnp : n * np + 1 ≡ 0 [MOD r]) (t : Nat) :
    montReduce r np n t * r ≡ t [MOD n] := by
  have hsum : t + t % r * np % r * n ≡ 0 [MOD r] :=
    calc t + t % r * np % r * n
      _ ≡ t + t * np * n [MOD r] :=
        (((Nat.mod_modEq _ r).trans ((Nat.mod_modEq t r).mul_right np)).mul_right n).add_left t
      _ = t * (n * np + 1) := by ring
      _ ≡ t * 0 [MOD r] := hnp.mul_left t
  rw [montReduce, Nat.div_mul_cancel (Nat.modEq_zero_iff_dvd.1 hsum)]
  exact Nat.add_mul_mod_self_right t _ n

/-- The size of a reduction, which lets the bound of one turn of R184 serve the next. -/
theorem montReduce_lt {r n t c : Nat} (hr : 0 < r) (np : Nat) (ht : t < r * c + n) :
    montReduce r np n t < c + n := by
  have hm : t % r * np % r + 1 ≤ r := Nat.mod_lt _ hr
  apply Nat.div_lt_of_lt_mul
  calc t + t % r * np % r * n
    _ < r * c + (t % r * np % r + 1) * n := by rw [add_one_mul]; omega
    _ ≤ r * c + r * n := Nat.add_le_add_left (Nat.mul_le_mul_right n hm) _
    _ = r * (c + n) := (mul_add r c n).symm

/-- Below twice the modulus one conditional subtraction is the remainder. -/
theorem ite_sub_eq_mod {n u : Nat} (h : u < n + n) : (if n ≤ u then u - n else u) = u % n := by
  split
  case isTrue hle => rw [Nat.mod_eq_sub_mod hle, Nat.mod_eq_of_lt (by omega)]
  case isFalse hlt => rw [Nat.mod_eq_of_lt (by omega)]

/-! ### The Montgomery product (R183) -/

section

variable {r np n a b : Nat}

theorem montMul_eq_montReduce_mod (hr : n < r) (ha : a < n) (hb : b < n) :
    montMul r np n a b = montReduce r np n (a * b) % n := by
  have hprod : a * b ≤ r * n := Nat.mul_le_mul (ha.trans hr).le hb.le
  rw [montMul_eq_ite, ite_sub_eq_mod (montReduce_lt (by omega) np (by omega))]

theorem montMul_lt (hr : n < r) (ha : a < n) (hb : b < n) : montMul r np n a b < n := by
  rw [montMul_eq_montReduce_mod hr ha hb]
  exact Nat.mod_lt _ (by omega)

/-- R183: `MontMul(a, b)` is `a · b · R⁻¹` modulo `n`. -/
theorem montMul_mul_modEq (hnp : n * np + 1 ≡ 0 [MOD r]) (hr : n < r) (ha : a < n) (hb : b < n) :
    montMul r np n a b * r ≡ a * b [MOD n] := by
  rw [montMul_eq_montReduce_mod hr ha hb]
  exact ((Nat.mod_modEq _ n).mul_right r).trans (montReduce_mul_modEq hnp _)

end

/-- Settles O41: `NPRIME` by the modular inverse, the product by one Montgomery reduction. -/
theorem montgomeryProductIsCorrect : Obligations.MontgomeryProductIsCorrect := by
  intro k n hk hodd hlt
  have hr := Nat.le_self_pow hk.ne' 2
  have hcop := coprime_two_pow_of_odd hodd k
  have hnp := mul_montNPrime_add_one hr hcop
  have hnplt : montNPrime (2 ^ k) n < 2 ^ k := montNPrime_lt (by omega) n
  refine ⟨hnplt, Nat.mod_eq_zero_of_dvd (Nat.modEq_zero_iff_dvd.1 hnp), fun y hy hyz => ?_,
    fun a ha b hb => ⟨montMul_lt hlt ha hb, montMul_mul_modEq hnp hlt ha hb⟩⟩
  exact eq_of_mul_add_one_modEq_zero hcop hy hnplt
    (Nat.modEq_zero_iff_dvd.2 (Nat.dvd_of_mod_eq_zero hyz)) hnp

/-! ### The word-serial multiplier (R184) -/

section

variable {w n0 n a b : Nat}

/-- Every turn keeps the accumulator below `b + n`. -/
theorem montMulLoop_lt (words i t : Nat) (ht : t < b + n) :
    montMulLoop w n0 n a b words i t < b + n := by
  induction words generalizing i t with
  | zero => exact ht
  | succ words ih =>
    rw [montMulLoop_succ]
    have hdigit : (a / 2 ^ (w * i) % 2 ^ w + 1) * b ≤ 2 ^ w * b :=
      Nat.mul_le_mul_right b (Nat.mod_lt _ (Nat.two_pow_pos w))
    rw [add_one_mul] at hdigit
    exact ih _ _ (montReduce_lt (Nat.two_pow_pos w) n0 (by omega))

/-- After the words below `i` the accumulator is their part of the product, over the radix of those
words; one more turn adds one word of `a` and divides by `2^w`. -/
theorem montMulLoop_mul_modEq (hn0 : n * n0 + 1 ≡ 0 [MOD 2 ^ w]) (words i t : Nat)
    (ht : t * 2 ^ (w * i) ≡ a % 2 ^ (w * i) * b [MOD n]) :
    montMulLoop w n0 n a b words i t * 2 ^ (w * (i + words)) ≡
      a % 2 ^ (w * (i + words)) * b [MOD n] := by
  induction words generalizing i t with
  | zero => exact ht
  | succ words ih =>
    rw [montMulLoop_succ, ← Nat.add_assoc, Nat.add_right_comm]
    apply ih
    generalize hd : a / 2 ^ (w * i) % 2 ^ w = d
    have hsplit : a % 2 ^ (w * (i + 1)) = a % 2 ^ (w * i) + 2 ^ (w * i) * d := by
      rw [mul_add_one, pow_add, Nat.mod_mul, hd]
    calc montReduce (2 ^ w) n0 n (t + d * b) * 2 ^ (w * (i + 1))
      _ = montReduce (2 ^ w) n0 n (t + d * b) * 2 ^ w * 2 ^ (w * i) := by ring
      _ ≡ (t + d * b) * 2 ^ (w * i) [MOD n] := (montReduce_mul_modEq hn0 _).mul_right _
      _ = t * 2 ^ (w * i) + 2 ^ (w * i) * d * b := by ring
      _ ≡ a % 2 ^ (w * i) * b + 2 ^ (w * i) * d * b [MOD n] := ht.add_right _
      _ = a % 2 ^ (w * (i + 1)) * b := by rw [hsplit, add_mul]

/-- R184: the word-serial multiplier, too, gives `a · b · R⁻¹` modulo `n`, below `n`. -/
theorem montMulWords_spec {bits : Nat} (hw : 0 < w) (hdvd : w ∣ bits) (hodd : n % 2 = 1)
    (ha : a < 2 ^ bits) (hb : b < n) :
    montMulWords bits w n a b < n ∧ montMulWords bits w n a b * 2 ^ bits ≡ a * b [MOD n] := by
  have hn0 := mul_montNPrime_add_one (Nat.le_self_pow hw.ne' 2) (coprime_two_pow_of_odd hodd w)
  have hlt := montMulLoop_lt (w := w) (n0 := montNPrime (2 ^ w) n) (a := a) (bits / w) 0 0
    (show 0 < b + n by omega)
  have hmod := montMulLoop_mul_modEq (a := a) (b := b) hn0 (bits / w) 0 0
    (by rw [mul_zero, pow_zero, Nat.mod_one, zero_mul, zero_mul])
  rw [zero_add, Nat.mul_div_cancel' hdvd, Nat.mod_eq_of_lt ha] at hmod
  rw [montMulWords, ite_sub_eq_mod (by omega)]
  exact ⟨Nat.mod_lt _ (by omega), ((Nat.mod_modEq _ n).mul_right _).trans hmod⟩

end

/-- Settles O42: both multipliers give the one residue `u` with `u · R ≡ a · b`. -/
theorem wordSerialMultiplierAgrees : Obligations.WordSerialMultiplierAgrees := by
  intro bits w n hw hbits hdvd hodd hlt a ha b hb
  have hcop := coprime_two_pow_of_odd hodd bits
  have hnp := mul_montNPrime_add_one (Nat.le_self_pow hbits.ne' 2) hcop
  obtain ⟨hwlt, hwmod⟩ := montMulWords_spec hw hdvd hodd (ha.trans hlt) hb
  exact (Nat.ModEq.cancel_right_of_coprime hcop
    (hwmod.trans (montMul_mul_modEq hnp hlt ha hb).symm)).eq_of_lt_of_lt hwlt (montMul_lt hlt ha hb)

/-! ### Montgomery exponentiation (R186, R187) -/

/-- A number is below two to the power of its bit length. -/
theorem lt_two_pow_bitlen (a : Nat) : a < 2 ^ bitlen a := by
  rw [bitlen]
  split
  case isTrue h => rw [h]; exact Nat.one_pos
  case isFalse => exact Nat.lt_log2_self

/-- A number of two bits or more is above 1. -/
theorem one_lt_of_bitlen {n b : Nat} (h : bitlen n = b + 2) : 1 < n :=
  (Nat.one_lt_two_pow b.succ_ne_zero).trans_le (two_pow_le_of_bitlen h)

section

variable {r np n : Nat} (hnp : n * np + 1 ≡ 0 [MOD r]) (hcop : Nat.Coprime n r) (hr : n < r)
include hnp hcop hr

/-- `MontMul` takes one factor `R` off a product that has it. -/
theorem montMul_modEq {a b c : Nat} (ha : a < n) (hb : b < n) (hab : a * b ≡ c * r [MOD n]) :
    montMul r np n a b ≡ c [MOD n] :=
  Nat.ModEq.cancel_right_of_coprime hcop ((montMul_mul_modEq hnp hr ha hb).trans hab)

/-- `MontMul` of the Montgomery forms of `x` and `y` is the Montgomery form of `x · y`. -/
theorem montMul_form_modEq {a b x y : Nat} (ha : a < n) (hb : b < n) (hx : a ≡ x * r [MOD n])
    (hy : b ≡ y * r [MOD n]) : montMul r np n a b ≡ x * y * r [MOD n] :=
  montMul_modEq hnp hcop hr ha hb
    ((hx.mul hy).trans (by rw [mul_mul_mul_comm, mul_assoc (x * y)]))

/-- R187: from the Montgomery form of `s` to the power that the bits `i` and above of `e` make, the loop
ends at that of `s^e`. -/
theorem modExpLoop_spec {s e xbar : Nat} (hxlt : xbar < n) (hx : xbar ≡ s * r [MOD n]) (i acc : Nat)
    (hlt : acc < n) (hacc : acc ≡ s ^ (e / 2 ^ i) * r [MOD n]) :
    modExpLoop r np n e xbar i acc < n ∧ modExpLoop r np n e xbar i acc ≡ s ^ e * r [MOD n] := by
  induction i generalizing acc with
  | zero => exact ⟨hlt, by simpa [modExpLoop] using hacc⟩
  | succ i ih =>
    have hhalf : e / 2 ^ (i + 1) = e / 2 ^ i / 2 := by rw [pow_succ, Nat.div_div_eq_div_mul]
    rw [hhalf] at hacc
    have hsqlt : montMul r np n acc acc < n := montMul_lt hr hlt hlt
    have hsq := montMul_form_modEq hnp hcop hr hlt hlt hacc hacc
    rw [← pow_add] at hsq
    rw [modExpLoop]
    split
    case isTrue hbit =>
      have hq : e / 2 ^ i = e / 2 ^ i / 2 + e / 2 ^ i / 2 + 1 := by omega
      have hmul := montMul_form_modEq hnp hcop hr hsqlt hxlt hsq hx
      rw [← pow_succ, ← hq] at hmul
      exact ih _ (montMul_lt hr hsqlt hxlt) hmul
    case isFalse hbit =>
      have hq : e / 2 ^ i = e / 2 ^ i / 2 + e / 2 ^ i / 2 := by omega
      rw [← hq] at hsq
      exact ih _ hsqlt hsq

end

/-- R187 for every radix that is a power of two above an odd modulus: the procedure returns
`s^E mod N`. -/
theorem modExpMont_eq_modExp {k n : Nat} (hodd : n % 2 = 1) (hone : 1 < n) (hr : n < 2 ^ k)
    (s e : Nat) : modExpMont (2 ^ k) s e n = modExp s e n := by
  have hcop := coprime_two_pow_of_odd hodd k
  have hnp := mul_montNPrime_add_one (by omega) hcop
  rw [modExpMont]
  generalize 2 ^ k = r at *
  generalize montNPrime r n = np at *
  have hpos : 0 < n := by omega
  have hs := Nat.mod_lt s hpos
  have hr2 := Nat.mod_lt (r * r) hpos
  have hxbar : montMul r np n (s % n) (r * r % n) ≡ s * r [MOD n] :=
    montMul_modEq hnp hcop hr hs hr2
      (mul_assoc s r r ▸ (Nat.mod_modEq s n).mul (Nat.mod_modEq (r * r) n))
  have hacc : r % n ≡ s ^ (e / 2 ^ bitlen e) * r [MOD n] := by
    rw [Nat.div_eq_of_lt (lt_two_pow_bitlen e), pow_zero, one_mul]
    exact Nat.mod_modEq r n
  obtain ⟨hlt, hloop⟩ := modExpLoop_spec hnp hcop hr (montMul_lt hr hs hr2) hxbar (bitlen e) _
    (Nat.mod_lt r hpos) hacc
  have hout := montMul_modEq hnp hcop hr hlt hone (by rwa [mul_one])
  exact (Nat.mod_eq_of_lt (montMul_lt hr hlt hone)).symm.trans hout

/-- Settles O43: the engine is the procedure of R187 with the radix `2^2048`, above every modulus of
that bit length. -/
theorem exponentiationEngineComputesModExp :
    Obligations.ExponentiationEngineComputesModExp := by
  intro s e n _ _ hodd hlen
  have hlt : n < 2 ^ 2048 := hlen ▸ lt_two_pow_bitlen n
  have hone : 1 < n := one_lt_of_bitlen (b := 2046) hlen
  have heq : modExpEngine s e n = modExp s e n := modExpMont_eq_modExp hodd hone hlt s e
  exact ⟨heq, heq ▸ Nat.mod_lt _ (by omega)⟩

end Sys2Proof

/-! ## RSA key records and encoded messages

A record and an encoded message are strings put together from pieces of known lengths, so what the
model reads from them (45_rsa.md R211, R212, R217) are their slices. -/

namespace Sys2Proof

/-! ### Fields of a byte string (R7) -/

/-- The pieces a byte string is put together from are its slices, at the sums of their lengths. -/
theorem slice_flatten (l : List Bytes) {i : Nat} (h : i < l.length) :
    slice l.flatten ((l.map List.length).take i).sum ((l.map List.length).take (i + 1)).sum =
      l[i] := by
  rw [slice, ← List.drop_take, List.drop_take_succ_flatten_eq_getElem]

/-- A field at the start of its slot, whatever fills the rest of the slot. -/
theorem slice_of_slot {b x y : Bytes} {i j : Nat} (h : slice b i j = x ++ y) :
    slice b i (i + x.length) = x := by
  have hle : x.length ≤ j - i := by
    have hlen := congrArg List.length h
    rw [slice_length, List.length_append] at hlen
    omega
  have htake := congrArg (List.take x.length) h
  rw [slice, List.take_take, Nat.min_eq_left hle, List.take_left] at htake
  rwa [slice, Nat.add_sub_cancel_left]

/-- One byte as a slice. -/
theorem slice_one {b : Bytes} {i : Nat} (h : i < b.length) (d : Byte) :
    slice b i (i + 1) = [b.getD i d] := by
  rw [slice, Nat.add_sub_cancel_left, List.drop_eq_getElem_cons h, List.getD_eq_getElem _ _ h]
  rfl

/-- Two bytes as a slice. -/
theorem slice_two {b : Bytes} {i : Nat} (h : i + 1 < b.length) (d : Byte) :
    slice b i (i + 2) = [b.getD i d, b.getD (i + 1) d] := by
  rw [← slice_append b (j := i + 1) (by omega) (by omega), slice_one (by omega) d, slice_one h d]
  rfl

/-- A slice is two pieces put together exactly when the two slices are the pieces. -/
theorem slice_eq_append_iff {b x y : Bytes} {i j k : Nat} (hx : x.length = j - i) (hij : i ≤ j)
    (hjk : j ≤ k) (hk : k ≤ b.length) :
    slice b i k = x ++ y ↔ slice b i j = x ∧ slice b j k = y := by
  rw [← slice_append b hij hjk]
  constructor
  · exact fun h => List.append_inj h (by rw [slice_length, hx]; omega)
  · rintro ⟨rfl, rfl⟩; rfl

theorem slice_getElem {b : Bytes} {i j k : Nat} (h : k < (slice b i j).length) (d : Byte) :
    (slice b i j)[k] = b.getD (i + k) d := by
  rw [slice_length] at h
  rw [List.getD_eq_getElem _ _ (by omega)]
  simp only [slice, List.getElem_take, List.getElem_drop]

/-- A slice is one byte repeated exactly when every byte of it is that byte. -/
theorem slice_eq_replicate_iff {b : Bytes} {i j : Nat} (hj : j ≤ b.length) (x d : Byte) :
    slice b i j = List.replicate (j - i) x ↔ ∀ k, i ≤ k → k < j → b.getD k d = x := by
  have hlen : (slice b i j).length = j - i := by rw [slice_length]; omega
  constructor
  · intro h k hik hkj
    have hk : k - i < (slice b i j).length := by omega
    have hget := slice_getElem hk d
    rw [Nat.add_sub_cancel' hik] at hget
    rw [← hget]
    exact (List.eq_replicate_iff.1 h).2 _ (List.getElem_mem hk)
  · intro h
    refine List.ext_getElem (by rw [hlen, List.length_replicate]) fun k hk _ => ?_
    rw [slice_getElem hk d, List.getElem_replicate, h _ (by omega) (by omega)]

end Sys2Proof

namespace Sys2Proof.Machine

/-! ### The parse of a key record (R211, R212) -/

/-- The slots of a key record in the order of the table of R211. -/
def KeyImage.slots (k : KeyImage) (f : SlotFill) : List Bytes :=
  [[0x01], bytesN 1 k.e.length, bytesN 2 k.d.length, bytesN 2 k.p.length, bytesN 2 k.q.length,
    bytesN 2 k.dp.length, bytesN 2 k.dq.length, bytesN 2 k.qp.length, [0x00, 0x00], k.n, k.e ++ f.e,
    k.d ++ f.d, k.p ++ f.p, k.q ++ f.q, k.dp ++ f.dp, k.dq ++ f.dq, k.qp ++ f.qp]

theorem KeyImage.record_eq_flatten (k : KeyImage) (f : SlotFill) :
    k.record f = (k.slots f).flatten := by
  simp [KeyImage.record, KeyImage.slots]

/-- The sizes of the slots (R211). -/
def slotSizes : List Nat := [1, 1, 2, 2, 2, 2, 2, 2, 2, 256, 8, 256, 128, 128, 128, 128, 128]

theorem KeyImage.Fills.length_slots {k : KeyImage} {f : SlotFill} (h : k.Fills f) :
    (k.slots f).map List.length = slotSizes := by
  simp [KeyImage.slots, slotSizes, h.n, h.e, h.d, h.p, h.q, h.dp, h.dq, h.qp]

section

variable {k : KeyImage} {f : SlotFill} (h : k.Fills f)
include h

theorem KeyImage.Fills.length_record : (k.record f).length = 1176 := by
  rw [k.record_eq_flatten, List.length_flatten, h.length_slots]; rfl

/-- Every slot stands at the offset that the sizes of the slots before it add up to. -/
theorem KeyImage.Fills.slice_record {i : Nat} (hi : i < 17) :
    slice (k.record f) (slotSizes.take i).sum (slotSizes.take (i + 1)).sum =
      (k.slots f)[i]'hi := by
  rw [k.record_eq_flatten, ← h.length_slots]
  exact slice_flatten _ _

/-- A number in the header: its slot holds its big-endian bytes. -/
theorem KeyImage.Fills.slotValue_header {i v w : Nat} (hi : i < 17)
    (hslot : (k.slots f)[i]'hi = bytesN w v) (hv : v < 256 ^ w) :
    slotValue (k.record f) (slotSizes.take i).sum w = v := by
  have hs := h.slice_record hi
  rw [hslot] at hs
  have hw := slice_of_slot (hs.trans (List.append_nil _).symm)
  rw [bytesN_length] at hw
  rw [slotValue, hw, be_bytesN hv]

/-- A field at the start of its slot. -/
theorem KeyImage.Fills.slotValue_field {i : Nat} {x y : Bytes} (hi : i < 17)
    (hslot : (k.slots f)[i]'hi = x ++ y) :
    slotValue (k.record f) (slotSizes.take i).sum x.length = be x := by
  rw [slotValue, slice_of_slot ((h.slice_record hi).trans hslot)]

theorem KeyImage.Fills.header :
    slotValue (k.record f) 0x000 1 = 1 ∧ slotValue (k.record f) 0x001 1 = k.e.length ∧
    lenField (k.record f) 0x002 = k.d.length ∧ lenField (k.record f) 0x004 = k.p.length ∧
    lenField (k.record f) 0x006 = k.q.length ∧ lenField (k.record f) 0x008 = k.dp.length ∧
    lenField (k.record f) 0x00A = k.dq.length ∧ lenField (k.record f) 0x00C = k.qp.length ∧
    lenField (k.record f) 0x00E = 0 := by
  have ⟨_, he, hd, hp, hq, hdp, hdq, hqp⟩ := h
  exact ⟨h.slotValue_header (i := 0) (by decide) rfl (by decide),
    h.slotValue_header (i := 1) (by decide) rfl (by omega),
    h.slotValue_header (i := 2) (by decide) rfl (by omega),
    h.slotValue_header (i := 3) (by decide) rfl (by omega),
    h.slotValue_header (i := 4) (by decide) rfl (by omega),
    h.slotValue_header (i := 5) (by decide) rfl (by omega),
    h.slotValue_header (i := 6) (by decide) rfl (by omega),
    h.slotValue_header (i := 7) (by decide) rfl (by omega),
    h.slotValue_header (i := 8) (by decide) rfl (by decide)⟩

theorem KeyImage.Fills.fields :
    slotValue (k.record f) 0x010 256 = be k.n ∧
    slotValue (k.record f) 0x110 k.e.length = be k.e ∧
    slotValue (k.record f) 0x118 k.d.length = be k.d ∧
    slotValue (k.record f) 0x218 k.p.length = be k.p ∧
    slotValue (k.record f) 0x298 k.q.length = be k.q ∧
    slotValue (k.record f) 0x318 k.dp.length = be k.dp ∧
    slotValue (k.record f) 0x398 k.dq.length = be k.dq ∧
    slotValue (k.record f) 0x418 k.qp.length = be k.qp := by
  have hn := h.slotValue_field (i := 9) (by decide) (List.append_nil k.n).symm
  rw [h.n] at hn
  exact ⟨hn, h.slotValue_field (i := 10) (by decide) rfl,
    h.slotValue_field (i := 11) (by decide) rfl, h.slotValue_field (i := 12) (by decide) rfl,
    h.slotValue_field (i := 13) (by decide) rfl, h.slotValue_field (i := 14) (by decide) rfl,
    h.slotValue_field (i := 15) (by decide) rfl, h.slotValue_field (i := 16) (by decide) rfl⟩

end

/-- R212: a record that fails none of the conditions yields its fields. -/
theorem parseKeyRecord_eq_some {rec : Bytes} (h : recordWellFormed rec = true) :
    parseKeyRecord rec = some (recordFields rec) := if_pos h

theorem parseKeyRecord_eq_none_iff {rec : Bytes} :
    parseKeyRecord rec = none ↔ recordWellFormed rec = false := by
  simp [parseKeyRecord]

/-- R212: the conditions of the rule. -/
theorem recordWellFormed_iff (rec : Bytes) : recordWellFormed rec = true ↔
    slotValue rec 0x000 1 = 1 ∧ lenField rec 0x00E = 0 ∧
    1 ≤ slotValue rec 0x001 1 ∧ slotValue rec 0x001 1 ≤ 8 ∧ lenField rec 0x002 ≤ 256 ∧
    lenField rec 0x004 ≤ 128 ∧ lenField rec 0x006 ≤ 128 ∧ lenField rec 0x008 ≤ 128 ∧
    lenField rec 0x00A ≤ 128 ∧ lenField rec 0x00C ≤ 128 := by
  simp only [recordWellFormed, Bool.and_eq_true, beq_iff_eq, decide_eq_true_eq, and_assoc]
  rfl

/-- Settles O44: the record is its slots put together, and each field starts its slot. -/
theorem parseReadsTheRecordLayout : Obligations.ParseReadsTheRecordLayout := by
  intro k f h hone
  have ⟨_, he, hd, hp, hq, hdp, hdq, hqp⟩ := h
  obtain ⟨hvalid, helen, hdlen, hplen, hqlen, hdplen, hdqlen, hqplen, hrsv⟩ := h.header
  have hwf : recordWellFormed (k.record f) = true := by
    rw [recordWellFormed_iff, hvalid, helen, hdlen, hplen, hqlen, hdplen, hdqlen, hqplen, hrsv]
    omega
  obtain ⟨hn, he, hd, hp, hq, hdp, hdq, hqp⟩ := h.fields
  rw [parseKeyRecord_eq_some hwf, recordFields, helen, hdlen, hplen, hqlen, hdplen, hdqlen, hqplen,
    hn, he, hd, hp, hq, hdp, hdq, hqp]
  exact ⟨h.length_record, rfl⟩

section

variable {rec : Bytes} {i : Nat}

theorem slotValue_one (h : i < rec.length) : slotValue rec i 1 = (rec.getD i 0).toNat := by
  rw [slotValue, slice_one h 0, be_cons, List.length_nil, pow_zero, mul_one, be_nil, add_zero]

theorem lenField_eq (h : i + 1 < rec.length) :
    lenField rec i = (rec.getD i 0).toNat * 256 + (rec.getD (i + 1) 0).toNat := by
  rw [lenField, slice_two h 0]
  simp [be]

end

/-- Settles O45: the conditions of the rule, in bytes of the record. -/
theorem parseFailsOnMalformedRecords : Obligations.ParseFailsOnMalformedRecords := by
  intro rec hlen byte half
  have hbyte {i : Nat} (hi : i < 1176) : slotValue rec i 1 = byte i := slotValue_one (hlen ▸ hi)
  have hhalf {i : Nat} (hi : i + 1 < 1176) : lenField rec i = half i := lenField_eq (hlen ▸ hi)
  rw [parseKeyRecord_eq_none_iff, ← Bool.not_eq_true, recordWellFormed_iff,
    hbyte (i := 0) (by decide), hbyte (i := 1) (by decide), hhalf (i := 2) (by decide),
    hhalf (i := 4) (by decide), hhalf (i := 6) (by decide), hhalf (i := 8) (by decide),
    hhalf (i := 10) (by decide), hhalf (i := 12) (by decide), hhalf (i := 14) (by decide)]
  omega

/-! ### The key checks (R214, R215) -/

/-- A bit length of `b + 1`, as the powers of two the number lies between. -/
theorem bitlen_eq_succ_iff {n b : Nat} : bitlen n = b + 1 ↔ 2 ^ b ≤ n ∧ n < 2 ^ (b + 1) := by
  constructor
  · exact fun h => ⟨two_pow_le_of_bitlen h, h ▸ lt_two_pow_bitlen n⟩
  · rintro ⟨hle, hlt⟩
    have hn : n ≠ 0 := by have := Nat.two_pow_pos b; omega
    rw [bitlen, if_neg hn, (Nat.log2_eq_iff hn).2 ⟨hle, hlt⟩]

/-- R215: none of D, P, Q and the CRT values is present. -/
def KeyRecord.publicOnly (r : KeyRecord) : Bool :=
  !r.hasD && !r.hasP && !r.hasQ && !r.hasDP && !r.hasDQ && !r.hasQP

theorem KeyRecord.publicOnly_iff (r : KeyRecord) : r.publicOnly = true ↔
    r.hasD = false ∧ r.hasP = false ∧ r.hasQ = false ∧ r.hasDP = false ∧ r.hasDQ = false ∧
      r.hasQP = false := by
  simp [KeyRecord.publicOnly, and_assoc]

/-- All three CRT values or none: then each of the bits is the flag. -/
theorem crtBits_eq : ∀ a b c crt : Bool,
    ((a = true ∨ b = true) ∨ c = true → (a = true ∧ b = true) ∧ c = true) →
      (a || b || c) = crt → a = crt ∧ b = crt ∧ c = crt := by
  decide

theorem privateCheck_of_publicOnly {r : KeyRecord} (h : r.publicOnly = true) :
    privateCheck r = some (false, false) := if_pos h

/-- R215 on a record with one of D, P, Q and the CRT values. -/
theorem privateCheck_of_not_publicOnly {r : KeyRecord} (h : r.publicOnly = false)
    (priv crt : Bool) :
    privateCheck r = some (priv, crt) ↔
      priv = true ∧ r.hasD = true ∧ r.hasP = true ∧ r.hasQ = true ∧
      r.hasDP = crt ∧ r.hasDQ = crt ∧ r.hasQP = crt ∧
      2 ≤ r.p ∧ 2 ≤ r.q ∧ r.p * r.q = r.n ∧
      r.d * r.e % Nat.lcm (r.p - 1) (r.q - 1) = 1 ∧
      (crt = true → r.dp = r.d % (r.p - 1) ∧ r.dq = r.d % (r.q - 1) ∧ r.qp < r.p ∧
        r.qp * r.q % r.p = 1) := by
  rw [privateCheck, if_neg (by rw [KeyRecord.publicOnly] at h; rw [h]; exact Bool.false_ne_true)]
  simp only [Option.ite_none_left_eq_some, Bool.and_eq_true, Bool.not_eq_true', decide_eq_true_eq,
    not_and, not_or, not_not, not_le, not_lt, Option.some.injEq, Prod.mk.injEq, Bool.not_eq_false,
    Bool.or_eq_true_iff]
  constructor
  · rintro ⟨⟨⟨hd, hp⟩, hq⟩, hall, ⟨hp2, hq2⟩, hn, hde, hdp, hdq, hqp, rfl, hcrt⟩
    obtain ⟨hasdp, hasdq, hasqp⟩ := crtBits_eq _ _ _ _ hall hcrt
    rw [hasdp, hasdq, hasqp, or_self, or_self] at hdp hdq hqp
    exact ⟨rfl, hd, hp, hq, hasdp, hasdq, hasqp, hp2, hq2, hn, hde,
      fun hc => ⟨hdp hc, hdq hc, hqp hc⟩⟩
  · rintro ⟨rfl, hd, hp, hq, hasdp, hasdq, hasqp, hp2, hq2, hn, hde, hvals⟩
    rw [hasdp, hasdq, hasqp, or_self, or_self, and_self, and_self, Bool.or_self, Bool.or_self]
    exact ⟨⟨⟨hd, hp⟩, hq⟩, id, ⟨hp2, hq2⟩, hn, hde, fun hc => (hvals hc).1,
      fun hc => (hvals hc).2.1, fun hc => (hvals hc).2.2, rfl, rfl⟩

/-- R214 in powers of two. -/
theorem publicCheck_iff_pow (n e : Nat) : publicCheck n e = true ↔
    2 ^ 2047 ≤ n ∧ n < 2 ^ 2048 ∧ n % 2 = 1 ∧ e % 2 = 1 ∧ 3 ≤ e := by
  rw [publicCheck_iff, bitlen_eq_succ_iff (b := 2047), and_assoc]

/-- Settles O46: a record with a public key only passes, any other as R215 lists. -/
theorem keyChecksAreTheRules : Obligations.KeyChecksAreTheRules := by
  refine ⟨publicCheck_iff_pow, fun r priv crt => ?_⟩
  cases hpub : r.publicOnly with
  | true =>
    rw [privateCheck_of_publicOnly hpub]
    have hbits := r.publicOnly_iff.1 hpub
    simp [hbits, eq_comm]
  | false =>
    rw [privateCheck_of_not_publicOnly hpub]
    refine (or_iff_right ?_).symm
    rintro ⟨-, -, hbits⟩
    simp [r.publicOnly_iff.2 hbits] at hpub

/-! ### The encoded message (R217) -/

theorem encodedMessage_eq (h : Bytes) : encodedMessage h =
    [0x00] ++ ([0x01] ++ (List.replicate 202 0xFF ++ ([0x00] ++ (digestInfo ++ h)))) := by
  simp only [encodedMessage, List.append_assoc]
  rfl

theorem encodedMessage_length {h : Bytes} (hl : h.length = 32) :
    (encodedMessage h).length = 256 := by
  simp only [encodedMessage, List.length_append, List.length_replicate, hl]
  rfl

theorem slice_eq_singleton_iff {b : Bytes} {i : Nat} (h : i < b.length) (x d : Byte) :
    slice b i (i + 1) = [x] ↔ b.getD i d = x := by
  rw [slice_one h d, List.singleton_inj]

/-- Settles O47: the encoded message is its six parts put together, and the checks compare the six
slices with them. -/
theorem encodedMessageIsTheSixChecks : Obligations.EncodedMessageIsTheSixChecks := by
  refine fun h hl => ⟨encodedMessage_length hl, fun em hem => ?_⟩
  have hwhole : slice em 0 256 = em := by
    rw [← hem, slice, Nat.sub_zero, List.drop_zero, List.take_length]
  conv_lhs => rw [← hwhole]
  rw [encodedMessage_eq, slice_eq_append_iff (j := 1) rfl (by decide) (by decide) hem.ge,
    slice_eq_append_iff (j := 2) rfl (by decide) (by decide) hem.ge,
    slice_eq_append_iff (j := 204) List.length_replicate (by decide) (by decide) hem.ge,
    slice_eq_append_iff (j := 205) rfl (by decide) (by decide) hem.ge,
    slice_eq_append_iff (j := 224) rfl (by decide) (by decide) hem.ge,
    slice_eq_singleton_iff (i := 0) (by omega) _ 1, slice_eq_singleton_iff (i := 1) (by omega) _ 0,
    slice_eq_replicate_iff (i := 2) (j := 204) (by omega) _ 0,
    slice_eq_singleton_iff (i := 204) (by omega) _ 1]
  rfl

end Sys2Proof.Machine

/-! ## The RSA commands

What a load leaves (45_rsa.md R213), the three commands that load (R216, R219, R220), each from that
and its checks, and RSA_DERIVE (R221). -/

namespace Sys2Proof.Machine

/-! ### What a load leaves (R213) -/

/-- The integer of `n` bytes of buffer memory fits a register of their bits. -/
theorem be_readBytes_lt (m : Memory) (a : Nat) {n w : Nat} (h : 8 * n ≤ w) :
    be (m.readBytes a n) < 2 ^ w :=
  calc be (m.readBytes a n) < 256 ^ (m.readBytes a n).length := be_lt _
    _ = 2 ^ (8 * n) := by rw [Memory.readBytes_length, Nat.pow_mul]
    _ ≤ 2 ^ w := Nat.pow_le_pow_right (by decide) h

section

variable {s : State} {r : KeyRecord}

theorem State.loadKey_of_unparsed (h : s.keyRecord = none) :
    s.loadKey s.keyptr.toNat = (s, some .uninitializedKey) := by
  obtain ⟨-, hload⟩ | ⟨r', hr', -⟩ := s.loadKey_cases s.keyptr.toNat
  · exact hload
  · cases h.symm.trans hr'

theorem State.loadKey_of_bad (h : s.keyRecord = some r)
    (hbad : publicCheck r.n r.e = false ∨ privateCheck r = none) :
    s.loadKey s.keyptr.toNat =
      ((s.loadFields r).setRsaStatus .invalid false false, some .keyValidationFailed) := by
  obtain ⟨hnone, -⟩ | ⟨r', hr', ⟨-, hload⟩ | ⟨priv, crt, hpub, hpriv, -⟩⟩ :=
    s.loadKey_cases s.keyptr.toNat
  · cases h.symm.trans hnone
  · cases h.symm.trans hr'; exact hload
  · cases h.symm.trans hr'; simp [hpub, hpriv] at hbad

theorem State.loadKey_of_good (h : s.keyRecord = some r) (hpub : publicCheck r.n r.e = true)
    {priv crt : Bool} (hpriv : privateCheck r = some (priv, crt)) :
    s.loadKey s.keyptr.toNat = ((s.loadFields r).setRsaStatus .valid priv crt, none) := by
  obtain ⟨hnone, -⟩ | ⟨r', hr', ⟨hbad, -⟩ | ⟨priv', crt', -, hpriv', hload⟩⟩ :=
    s.loadKey_cases s.keyptr.toNat
  · cases h.symm.trans hnone
  · cases h.symm.trans hr'; simp [hpub, hpriv] at hbad
  · cases h.symm.trans hr'; cases hpriv.symm.trans hpriv'; exact hload

/-- The registers after a load hold the integers of the record. -/
theorem State.loadFields_toNat (h : s.keyRecord = some r) :
    (s.loadFields r).rsaN.toNat = r.n ∧ (s.loadFields r).rsaE.toNat = r.e ∧
    (s.loadFields r).rsaD.toNat = r.d ∧ (s.loadFields r).rsaP.toNat = r.p ∧
    (s.loadFields r).rsaQ.toNat = r.q ∧ (s.loadFields r).rsaDP.toNat = r.dp ∧
    (s.loadFields r).rsaDQ.toNat = r.dq ∧ (s.loadFields r).rsaQP.toNat = r.qp :=
  have hr := parseKeyRecord_fits h
  ⟨State.loadFields_rsaN_toNat hr s, State.loadFields_rsaE_toNat hr s,
    State.loadFields_rsaD_toNat hr s, State.loadFields_rsaP_toNat hr s,
    State.loadFields_rsaQ_toNat hr s, State.loadFields_rsaDP_toNat hr s,
    State.loadFields_rsaDQ_toNat hr s, State.loadFields_rsaQP_toNat hr s⟩

/-- R186, R187: with the loaded key the engine computes `s^E mod N`. -/
theorem State.publicTransform_loaded (h : s.keyRecord = some r) (hpub : publicCheck r.n r.e = true)
    (st : RsaState) (priv crt : Bool) (a : Nat) :
    ((s.loadFields r).setRsaStatus st priv crt).publicTransform a =
      bytesN 256 (be (s.mem.readBytes a 256) ^ r.e % r.n) := by
  obtain ⟨hn, he, -⟩ := State.loadFields_toNat h
  obtain ⟨hlen, hodd, -, hthree⟩ := (publicCheck_iff _ _).1 hpub
  have hengine := exponentiationEngineComputesModExp (be (s.mem.readBytes a 256)) r.e r.n
    (be_readBytes_lt s.mem a (by decide)) (by omega) hodd hlen
  rw [State.publicTransform, State.setRsaStatus_rsaN, State.setRsaStatus_rsaE, hn, he,
    State.setRsaStatus_mem, State.loadFields_mem, hengine.1, modExp]

/-! ### The loading commands, once their checks pass (R216, R219, R220) -/

theorem firstError_rsaChecks (hfree : s.rsast = .uninit) {ranges : List (Nat × Nat)}
    (hranges : ∀ x ∈ ranges, rangeOK s.backed x.1 x.2 = true) :
    firstError [rsaFreeCheck s, rangeCheck s ranges] = none := by
  rw [(rsaFreeCheck_eq_none_iff s).2 hfree, (rangeCheck_eq_none_iff s ranges).2 hranges,
    firstError_cons_none, firstError_cons_none, firstError_nil]

/-- What RSA_INIT, RSA_VERIFY and RSA_RAW ask before they load (R210, R211). -/
structure State.ReadyToLoad (s : State) : Prop where
  free : s.rsast = .uninit
  record : rangeOK s.backed s.keyptr.toNat Config.keyRecordLen = true

theorem exec_rsaInit (hs : s.ReadyToLoad) : exec .rsaInit s =
    .next ((s.loadKey s.keyptr.toNat).1.endWith (s.loadKey s.keyptr.toNat).2) := by
  unfold exec
  exact State.command_of_checks (firstError_rsaChecks hs.free (by simpa using hs.record))

section

variable (hs : s.ReadyToLoad) (hsrc : rangeOK s.backed s.src.toNat 256 = true)
  (haux : rangeOK s.backed s.aux.toNat 32 = true)
include hs hsrc haux

theorem exec_rsaVerify_of_error {k : ErrorKind} (hload : (s.loadKey s.keyptr.toNat).2 = some k) :
    exec .rsaVerify s = .next (s.releaseRsa.raise k) := by
  unfold exec execRsaVerify
  rw [State.command_of_checks (firstError_rsaChecks hs.free (by simp [hs.record, hsrc, haux]))]
  simp only [hload, State.releaseRsa_loadKey, State.endWith_some]

theorem exec_rsaVerify_of_good (hrec : s.keyRecord = some r) (hpub : publicCheck r.n r.e = true)
    (hpriv : privateCheck r ≠ none) :
    exec .rsaVerify s = .next (s.releaseRsa.endWith
      (if bytesN 256 (be (s.mem.readBytes s.src.toNat 256) ^ r.e % r.n) =
          encodedMessage (s.mem.readBytes s.aux.toNat 32) then none
        else some .paddingOrDigestMismatch)) := by
  obtain ⟨⟨priv, crt⟩, hpriv⟩ := Option.ne_none_iff_exists'.1 hpriv
  unfold exec execRsaVerify
  rw [State.command_of_checks (firstError_rsaChecks hs.free (by simp [hs.record, hsrc, haux]))]
  simp only [State.releaseRsa_loadKey]
  rw [State.loadKey_of_good hrec hpub hpriv, State.publicTransform_loaded hrec hpub]

end

section

variable (hs : s.ReadyToLoad) (hsrc : rangeOK s.backed s.src.toNat 256 = true)
  (hdst : rangeOK s.backed s.dst.toNat 256 = true)
include hs hsrc hdst

theorem exec_rsaRaw_of_error {k : ErrorKind} (hload : (s.loadKey s.keyptr.toNat).2 = some k) :
    exec .rsaRaw s = .next (s.releaseRsa.raise k) := by
  unfold exec execRsaRaw
  rw [State.command_of_checks (firstError_rsaChecks hs.free (by simp [hs.record, hsrc, hdst]))]
  simp only [hload, State.releaseRsa_loadKey, State.endWith_some]

theorem exec_rsaRaw_of_good (hrec : s.keyRecord = some r) (hpub : publicCheck r.n r.e = true)
    (hpriv : privateCheck r ≠ none) :
    exec .rsaRaw s = .next (s.releaseRsa.setMem (s.mem.writeBytes s.dst.toNat
      (bytesN 256 (be (s.mem.readBytes s.src.toNat 256) ^ r.e % r.n)))).finish := by
  obtain ⟨⟨priv, crt⟩, hpriv⟩ := Option.ne_none_iff_exists'.1 hpriv
  unfold exec execRsaRaw
  rw [State.command_of_checks (firstError_rsaChecks hs.free (by simp [hs.record, hsrc, hdst]))]
  simp only [State.releaseRsa_loadKey]
  rw [State.loadKey_of_good hrec hpub hpriv, State.publicTransform_loaded hrec hpub,
    State.endWith_none]

end

end

/-- Settles O48: the registers are wide enough for what a record that parses holds. -/
theorem rsaInitLoadsTheKey : Obligations.RsaInitLoadsTheKey := by
  intro s r priv crt hfree hkey hrec hpub hpriv
  refine ⟨_, exec_rsaInit ⟨hfree, hkey⟩, ?_⟩
  rw [State.loadKey_of_good hrec hpub hpriv]
  exact ⟨rfl, rfl, rfl, rfl, State.loadFields_toNat hrec⟩

/-- Settles O49: a load that fails ends each command with its error, and a release keeps nothing of
it. -/
theorem badKeyRecordsAreReported : Obligations.BadKeyRecordsAreReported := by
  intro s hfree hkey verifyRanges rawRanges released
  have hs : s.ReadyToLoad := ⟨hfree, hkey⟩
  refine ⟨fun hrec => ?_, fun r hrec hbad => ?_⟩
  · have hload := State.loadKey_of_unparsed hrec
    refine ⟨?_, fun ⟨hsrc, haux⟩ => exec_rsaVerify_of_error hs hsrc haux (by rw [hload]),
      fun ⟨hsrc, hdst⟩ => exec_rsaRaw_of_error hs hsrc hdst (by rw [hload])⟩
    rw [exec_rsaInit hs, hload]
    rfl
  · have hload := State.loadKey_of_bad hrec hbad
    refine ⟨⟨_, exec_rsaInit hs, ?_⟩,
      fun ⟨hsrc, haux⟩ => exec_rsaVerify_of_error hs hsrc haux (by rw [hload]),
      fun ⟨hsrc, hdst⟩ => exec_rsaRaw_of_error hs hsrc hdst (by rw [hload])⟩
    rw [hload]
    exact ⟨rfl, rfl, rfl, rfl, State.loadFields_toNat hrec⟩

/-- Settles O50: the engine's value with the loaded key is `s^E mod N`. -/
theorem rsaVerifyComparesTheTransform : Obligations.RsaVerifyComparesTheTransform := by
  intro s r hfree hkey hsrc haux hrec hpub hpriv em good
  rw [exec_rsaVerify_of_good ⟨hfree, hkey⟩ hsrc haux hrec hpub hpriv]
  exact ⟨fun hgood => by rw [if_pos hgood]; rfl, fun hbad => by rw [if_neg hbad]; rfl⟩

/-- Settles O51: the 256 bytes are the one write of the command. -/
theorem rsaRawWritesTheTransform : Obligations.RsaRawWritesTheTransform := by
  intro s r hfree hkey hsrc hdst hrec hpub hpriv
  have hexec := exec_rsaRaw_of_good ⟨hfree, hkey⟩ hsrc hdst hrec hpub hpriv
  have hlen := bytesN_length 256 (be (s.mem.readBytes s.src.toNat 256) ^ r.e % r.n)
  generalize bytesN 256 (be (s.mem.readBytes s.src.toNat 256) ^ r.e % r.n) = out at hexec hlen ⊢
  exact ⟨_, hexec, rfl, s.mem.readBytes_writeBytes_of_length s.dst.toNat hlen,
    s.mem.sameOutside_writeBytes_of_length s.dst.toNat hlen⟩

/-! ### RSA_DERIVE (R221) -/

/-- The inverse below the modulus is the only one (R188). -/
theorem modInv_unique {a m x y : Nat} (h : modInv a m = some x) (hcop : Nat.Coprime m a)
    (hy : y < m) (hinv : y * a ≡ 1 [MOD m]) : y = x := by
  obtain ⟨hlt, hxinv⟩ := modInv_spec h
  exact (Nat.ModEq.cancel_right_of_coprime hcop (hinv.trans hxinv.symm)).eq_of_lt_of_lt hy hlt

/-- With a modulus of at least 2 only a common factor leaves the inverse undefined (R188, R221). -/
theorem modInv_eq_none_iff_of_two_le {a m : Nat} (hm : 2 ≤ m) :
    modInv a m = none ↔ ¬Nat.Coprime m a := by
  rw [modInv_eq_none_iff, or_iff_right (by omega), ← Nat.gcd_rec]

theorem exec_rsaDerive {s : State} (hvalid : s.rsast = .valid) (hpriv : s.hasPriv = true)
    (hdst : rangeOK s.backed s.dst.toNat 384 = true) :
    exec .rsaDerive s = .next ((deriveBody s).1.endWith (deriveBody s).2) := by
  have hranges : rangeCheck s [(s.dst.toNat, 384)] = none :=
    (rangeCheck_eq_none_iff s _).2 (by simpa using hdst)
  unfold exec
  refine State.command_of_checks ?_
  rw [(deriveCheck_eq_none_iff s).2 ⟨hvalid, hpriv⟩, hranges, firstError_cons_none,
    firstError_cons_none, firstError_nil]

/-- The 384 bytes that RSA_DERIVE writes. -/
def crtBytes (dp dq qp : Nat) : Bytes := bytesN 128 dp ++ bytesN 128 dq ++ bytesN 128 qp

theorem crtBytes_length (dp dq qp : Nat) : (crtBytes dp dq qp).length = 384 := by
  simp only [crtBytes, List.length_append, bytesN_length]

theorem deriveBody_of_none {s : State} (h : modInv s.rsaQ.toNat s.rsaP.toNat = none) :
    deriveBody s = (s, some .modularInverseUndefined) := by
  simp only [deriveBody, h]

theorem deriveBody_of_some {s : State} {qp : Nat} (h : modInv s.rsaQ.toNat s.rsaP.toNat = some qp) :
    deriveBody s =
      ((s.setCrt (s.rsaD.toNat % (s.rsaP.toNat - 1)) (s.rsaD.toNat % (s.rsaQ.toNat - 1)) qp).setMem
        (s.mem.writeBytes s.dst.toNat (crtBytes (s.rsaD.toNat % (s.rsaP.toNat - 1))
          (s.rsaD.toNat % (s.rsaQ.toNat - 1)) qp)), none) := by
  simp only [deriveBody, h, crtBytes]

/-- Settles O52: the inverse exists exactly for coprime primes, and the values are the only ones the
invariant allows. -/
theorem rsaDeriveCompletesTheKey : Obligations.RsaDeriveCompletesTheKey := by
  intro s hs hvalid hpriv hdst p q
  obtain ⟨hP, hQ⟩ := hs.two_le_primes hpriv
  have hexec := exec_rsaDerive hvalid hpriv hdst
  refine ⟨fun hcop => ?_, fun hcop => ?_⟩
  · obtain ⟨qp, hqp⟩ := Option.ne_none_iff_exists'.1
      (mt (modInv_eq_none_iff_of_two_le hP).1 (not_not.2 hcop))
    obtain ⟨hlt, hinv⟩ := modInv_spec hqp
    have hdp := toNat_ofNat_mod_pred (d := s.rsaD.toNat) hP
    have hdq := toNat_ofNat_mod_pred (d := s.rsaD.toNat) hQ
    have hqp' : (BitVec.ofNat 1024 qp).toNat = qp := by
      rw [BitVec.toNat_ofNat, Nat.mod_eq_of_lt (hlt.trans s.rsaP.isLt)]
    have hmod : qp * s.rsaQ.toNat % s.rsaP.toNat = 1 := Eq.trans hinv (Nat.mod_eq_of_lt hP)
    have hlen := crtBytes_length (s.rsaD.toNat % (s.rsaP.toNat - 1))
      (s.rsaD.toNat % (s.rsaQ.toNat - 1)) qp
    rw [deriveBody_of_some hqp] at hexec
    generalize hout : crtBytes (s.rsaD.toNat % (s.rsaP.toNat - 1))
      (s.rsaD.toNat % (s.rsaQ.toNat - 1)) qp = out at hexec hlen
    refine ⟨_, hexec, rfl, hdp, hdq, hqp'.symm ▸ hlt, hqp'.symm ▸ hmod,
      fun hcrt => ⟨?_, ?_, ?_⟩, ?_, s.mem.sameOutside_writeBytes_of_length s.dst.toNat hlen⟩
    · exact BitVec.eq_of_toNat_eq (hdp.trans (hs.crtDP hcrt).symm)
    · exact BitVec.eq_of_toNat_eq (hdq.trans (hs.crtDQ hcrt).symm)
    · obtain ⟨hlt', hinv'⟩ := hs.crtQP hcrt
      exact BitVec.eq_of_toNat_eq (hqp'.trans (modInv_unique hqp hcop hlt' hinv').symm)
    · have hread := s.mem.readBytes_writeBytes_of_length s.dst.toNat hlen
      rw [← hdp, ← hdq, ← hqp'] at hout
      exact hread.trans hout.symm
  · rw [hexec, deriveBody_of_none ((modInv_eq_none_iff_of_two_le hP).2 hcop)]
    rfl

end Sys2Proof.Machine

/-! ## The law of signatures (R222) -/

namespace Sys2Proof

/-! ### The RSA law of exponents (R222) -/

/-- Fermat: an exponent that is 1 modulo `p - 1` changes no residue. -/
theorem pow_modEq_self_of_prime {p n : Nat} (hp : p.Prime) (hpos : 1 ≤ n) (hn : n ≡ 1 [MOD p - 1])
    (x : Nat) : x ^ n ≡ x [MOD p] := by
  obtain ⟨k, hk⟩ := (Nat.modEq_iff_dvd' hpos).1 hn.symm
  obtain rfl : n = (p - 1) * k + 1 := by omega
  have : Fact p.Prime := ⟨hp⟩
  rw [← ZMod.natCast_eq_natCast_iff, Nat.cast_pow]
  by_cases hx : (x : ZMod p) = 0
  · rw [hx, zero_pow (Nat.succ_ne_zero _)]
  · rw [pow_succ, pow_mul, ZMod.pow_card_sub_one_eq_one hx, one_pow, one_mul]

/-- R222: an exponent that is 1 modulo `lcm(P - 1, Q - 1)` changes no residue modulo `P · Q`. -/
theorem pow_modEq_self_of_primes {p q n : Nat} (hp : p.Prime) (hq : q.Prime) (hpq : p ≠ q)
    (hn : n % Nat.lcm (p - 1) (q - 1) = 1) (x : Nat) : x ^ n ≡ x [MOD p * q] := by
  have hpos : 1 ≤ n := by
    rw [Nat.one_le_iff_ne_zero]
    rintro rfl
    simp at hn
  have hone := modEq_one_of_mod_eq_one hn
  exact (Nat.modEq_and_modEq_iff_modEq_mul ((Nat.coprime_primes hp hq).2 hpq)).1
    ⟨pow_modEq_self_of_prime hp hpos (hone.of_dvd (Nat.dvd_lcm_left _ _)) x,
      pow_modEq_self_of_prime hq hpos (hone.of_dvd (Nat.dvd_lcm_right _ _)) x⟩

/-- Flipping one bit adds or takes off a power of two. -/
theorem xor_two_pow_cases (a k : Nat) : a ^^^ 2 ^ k = a + 2 ^ k ∨ (a ^^^ 2 ^ k) + 2 ^ k = a := by
  induction k generalizing a with
  | zero =>
    have hdiv := Nat.xor_div_two_pow (a := a) (b := 1) (n := 1)
    rw [pow_one, show 1 / 2 = 0 from rfl, Nat.xor_zero] at hdiv
    have hmod := Nat.xor_mod_two_eq (m := a) (n := 1)
    rw [pow_zero]
    omega
  | succ k ih =>
    have hpow : 2 ^ (k + 1) = 2 * 2 ^ k := pow_succ' 2 k
    have hdiv := Nat.xor_div_two_pow (a := a) (b := 2 ^ (k + 1)) (n := 1)
    have hmod := Nat.xor_mod_two_eq (m := a) (n := 2 ^ (k + 1))
    rw [pow_one, show 2 ^ (k + 1) / 2 = 2 ^ k by omega] at hdiv
    obtain h | h := ih (a / 2)
    · omega
    · omega

/-- R222: a flipped bit shows modulo every odd number above 1. -/
theorem xor_two_pow_not_modEq {n : Nat} (hodd : n % 2 = 1) (hone : 1 < n) (a k : Nat) :
    ¬a ^^^ 2 ^ k ≡ a [MOD n] := by
  intro h
  have hzero : 2 ^ k ≡ 0 [MOD n] := by
    obtain hadd | hsub := xor_two_pow_cases a k
    · rw [hadd] at h
      exact Nat.ModEq.add_left_cancel' a h
    · exact Nat.ModEq.add_left_cancel' (a ^^^ 2 ^ k) ((congrArg (· % n) hsub).trans h.symm)
  have heq := (coprime_two_pow_of_odd hodd k).eq_one_of_dvd (Nat.modEq_zero_iff_dvd.1 hzero)
  omega

/-- R222: where `d · e` changes no residue, only `m^d` has the `e`-th power `m`. -/
theorem modEq_pow_of_pow_modEq {n d e m x : Nat} (hde : ∀ y, y ^ (d * e) ≡ y [MOD n])
    (hx : x ^ e ≡ m [MOD n]) : x ≡ m ^ d [MOD n] :=
  calc x ≡ x ^ (d * e) [MOD n] := (hde x).symm
    _ = (x ^ e) ^ d := by rw [mul_comm, pow_mul]
    _ ≡ m ^ d [MOD n] := hx.pow d

/-- R222: `m^d mod n` has the `e`-th power `m`. -/
theorem pow_mod_pow_modEq {n d e : Nat} (hde : ∀ y, y ^ (d * e) ≡ y [MOD n]) (m : Nat) :
    (m ^ d % n) ^ e ≡ m [MOD n] :=
  calc (m ^ d % n) ^ e ≡ (m ^ d) ^ e [MOD n] := (Nat.mod_modEq _ _).pow e
    _ = m ^ (d * e) := (pow_mul m d e).symm
    _ ≡ m [MOD n] := hde m

end Sys2Proof

namespace Sys2Proof.Machine

/-! ### Signatures (R222) -/

/-- The first byte of an encoded message is zero. -/
theorem be_encodedMessage_lt {h : Bytes} (hl : h.length = 32) {w : Nat} (hw : 2040 ≤ w) :
    be (encodedMessage h) < 2 ^ w := by
  have hlen := encodedMessage_length hl
  rw [encodedMessage_eq, List.singleton_append, List.length_cons] at hlen
  rw [encodedMessage_eq, List.singleton_append, be_cons]
  generalize [0x01] ++ (List.replicate 202 0xFF ++ ([0x00] ++ (digestInfo ++ h))) = rest at hlen ⊢
  calc (0 : Byte).toNat * 256 ^ rest.length + be rest = be rest := by simp
    _ < 256 ^ rest.length := be_lt rest
    _ = 2 ^ (8 * rest.length) := by rw [Nat.pow_mul]
    _ ≤ 2 ^ w := Nat.pow_le_pow_right (by decide) (by omega)

section

variable {n d e k : Nat} {em : Bytes} (hk : em.length = k) (hn : n < 2 ^ (8 * k)) (hem : be em < n)
include hk hn hem

/-- Comparing the bytes of a residue with a message is comparing residues. -/
theorem bytesN_mod_eq_iff {v : Nat} : bytesN k (v % n) = em ↔ v ≡ be em [MOD n] := by
  have hmod : v % n < 256 ^ k := by
    rw [Nat.pow_mul] at hn
    exact (Nat.mod_lt v (by omega)).trans hn
  rw [Nat.ModEq, Nat.mod_eq_of_lt hem]
  constructor
  · intro h
    rw [← h, be_bytesN hmod]
  · intro h
    rw [h, ← hk, bytesN_be]

variable (hde : ∀ x, x ^ (d * e) ≡ x [MOD n])
include hde

/-- R222: the signature of a message has the message as its transform. -/
theorem transform_signature : bytesN k (be (bytesN k (be em ^ d % n)) ^ e % n) = em := by
  have hsig : be em ^ d % n < 256 ^ k := by
    rw [Nat.pow_mul] at hn
    exact (Nat.mod_lt _ (by omega)).trans hn
  rw [be_bytesN hsig, bytesN_mod_eq_iff hk hn hem]
  exact pow_mod_pow_modEq hde _

/-- R222: with one bit flipped the signature has another transform. -/
theorem transform_flipped (hodd : n % 2 = 1) (hone : 1 < n) {j : Nat} (hj : j < 8 * k) :
    bytesN k (be (bytesN k (be em ^ d % n ^^^ 2 ^ j)) ^ e % n) ≠ em := by
  have hsig : be em ^ d % n < 2 ^ (8 * k) := (Nat.mod_lt _ (by omega)).trans hn
  have hflip : be em ^ d % n ^^^ 2 ^ j < 256 ^ k := by
    rw [show 256 = 2 ^ 8 from rfl, ← Nat.pow_mul]
    exact Nat.xor_lt_two_pow hsig (Nat.pow_lt_pow_right (by decide) hj)
  rw [be_bytesN hflip, Ne, bytesN_mod_eq_iff hk hn hem]
  intro hpow
  exact xor_two_pow_not_modEq hodd hone _ j
    ((modEq_pow_of_pow_modEq hde hpow).trans (Nat.mod_modEq _ n).symm)

end

/-- With distinct primes P and Q `D · E` changes no residue modulo `N` (R215, R222). -/
theorem pow_mul_modEq_of_privateCheck {r : KeyRecord} {crt : Bool}
    (h : privateCheck r = some (true, crt)) (hp : r.p.Prime) (hq : r.q.Prime) (hpq : r.p ≠ r.q)
    (x : Nat) : x ^ (r.d * r.e) ≡ x [MOD r.n] := by
  obtain ⟨hn, hde⟩ := (privateCheck_eq_some h).2.1 rfl
  exact hn ▸ pow_modEq_self_of_primes hp hq hpq hde x

/-- Settles O53: the transform undoes the signature, and two blocks with one transform agree modulo
the odd `N`, where a flipped bit shows. -/
theorem signatureOfTheHashVerifies : Obligations.SignatureOfTheHashVerifies := by
  intro s r crt hfree hkey hsrc haux hrec hpub hpriv hp hq hpq em sig block
  have hsome : privateCheck r ≠ none := by rw [hpriv]; exact nofun
  have hde := pow_mul_modEq_of_privateCheck hpriv hp hq hpq
  obtain ⟨hlen, hodd, -, -⟩ := (publicCheck_iff _ _).1 hpub
  have hn : r.n < 2 ^ (8 * 256) := (lt_two_pow_bitlen r.n).trans_eq (congrArg _ hlen)
  have hone : 1 < r.n := one_lt_of_bitlen (b := 2046) hlen
  have hhash : (s.mem.readBytes s.aux.toNat 32).length = 32 := Memory.readBytes_length _ _ _
  have hk : em.length = 256 := encodedMessage_length hhash
  have hem : be em < r.n :=
    (be_encodedMessage_lt hhash (by decide)).trans_le (two_pow_le_of_bitlen (b := 2047) hlen)
  obtain ⟨haccept, hreject⟩ :=
    rsaVerifyComparesTheTransform s r hfree hkey hsrc haux hrec hpub hsome
  refine ⟨fun hblock => ?_, fun j hj hblock => ?_⟩
  · have hgood : bytesN 256 (be block ^ r.e % r.n) = em := by
      rw [hblock]; exact transform_signature hk hn hem hde
    refine ⟨haccept hgood, fun hdst => ?_⟩
    obtain ⟨t, hexec, ht, hread, -⟩ :=
      rsaRawWritesTheTransform s r hfree hkey hsrc hdst hrec hpub hsome
    exact ⟨t, hexec, by rw [ht], hread.trans hgood⟩
  · have hbad : bytesN 256 (be block ^ r.e % r.n) ≠ em := by
      rw [hblock]; exact transform_flipped hk hn hem hde hodd hone hj
    exact hreject hbad

end Sys2Proof.Machine

/-! ## Admission, and independence of the two sub-states

46_context.md R251 and R255: which error a command's first check gives is read off the table of R255,
and nothing behind that check raises IllegalCommand; a command commutes with a change of the
sub-state that is not its own. -/

namespace Sys2Proof.Machine

/-! ### The checks of admission are the rows of the table (R255) -/

/-- The columns of the first table of R255. -/
def modeColumns : List Mode := [.none, .ecbEnc, .ecbDec, .ctr, .cbcEnc, .cbcDec]

/-- The columns of the second table of R255. -/
def rsaColumns : List RsaState := [.uninit, .valid, .invalid]

theorem getElem?_modeColumns (m : Mode) : modeColumns[m.code]? = some m := by cases m <;> rfl

theorem getElem?_rsaColumns (r : RsaState) : rsaColumns[r.code]? = some r := by cases r <;> rfl

theorem admission_of_modeRow {i : Instr} {letter : Mode → Admission}
    (h : aesAdmission i = some (modeColumns.map letter)) (s : State) :
    admission i s = letter s.mode := by
  simp [admission, h, getElem?_modeColumns]

theorem admission_of_rsaRow {i : Instr} {letter : RsaState → Admission} {s : State}
    (haes : aesAdmission i = none)
    (h : rsaAdmission s.hasPriv i = some (rsaColumns.map letter)) :
    admission i s = letter s.rsast := by
  simp [admission, haes, h, getElem?_rsaColumns]

/-- The row of an AES init command. -/
def initLetter (m : Mode) : Admission := if m = .none then .ok else .i

/-- The row of a command that uses the AES sub-state in MODE `m`. -/
def useLetter (m n : Mode) : Admission := if n = .none then .u else if n = m then .ok else .i

/-- The row of the RSA commands that need a free RSA sub-state. -/
def rsaFreeLetter (r : RsaState) : Admission := if r = .uninit then .ok else .i

/-- The row of RSA_DERIVE. -/
def deriveLetter (hasPriv : Bool) : RsaState → Admission
  | .uninit => .u
  | .valid => if hasPriv then .ok else .u
  | .invalid => .k

theorem initCheck_eq_admission {i : Instr} (h : aesAdmission i = some (modeColumns.map initLetter))
    (s : State) : initCheck s = (admission i s).error := by
  rw [admission_of_modeRow h, initCheck, initLetter, apply_ite Admission.error]
  rfl

theorem useCheck_eq_admission {i : Instr} {m : Mode}
    (h : aesAdmission i = some (modeColumns.map (useLetter m))) (s : State) :
    useCheck m s = (admission i s).error := by
  rw [admission_of_modeRow h, useCheck, useLetter, apply_ite Admission.error,
    apply_ite Admission.error, ite_not]
  rfl

theorem rsaFreeCheck_eq_admission {i : Instr} {s : State} (haes : aesAdmission i = none)
    (h : rsaAdmission s.hasPriv i = some (rsaColumns.map rsaFreeLetter)) :
    rsaFreeCheck s = (admission i s).error := by
  rw [admission_of_rsaRow haes h, rsaFreeCheck, rsaFreeLetter, apply_ite Admission.error]
  rfl

theorem deriveCheck_eq_admission (s : State) :
    deriveCheck s = (admission .rsaDerive s).error := by
  rw [admission_of_rsaRow (letter := deriveLetter s.hasPriv) rfl rfl, deriveCheck]
  cases s.rsast with
  | uninit | invalid => rfl
  | valid => cases s.hasPriv <;> rfl

/-! ### Nothing behind admission raises IllegalCommand (R264) -/

theorem sizeCheck_ne_illegalCommand (s : State) : sizeCheck s ≠ some .illegalCommand := by
  obtain h | h := sizeCheck_cases s <;> simp [h]

theorem rangeCheck_ne_illegalCommand (s : State) (ranges : List (Nat × Nat)) :
    rangeCheck s ranges ≠ some .illegalCommand := by
  obtain h | h := rangeCheck_cases s ranges <;> simp [h]

theorem firstError_ne_of_forall {cs : List (Option ErrorKind)} {k : ErrorKind}
    (h : ∀ c ∈ cs, c ≠ some k) : firstError cs ≠ some k := by
  induction cs with
  | nil => simp
  | cons c cs ih =>
    obtain ⟨hc, hcs⟩ := List.forall_mem_cons.1 h
    cases c with
    | none => exact ih hcs
    | some _ => exact hc

theorem State.loadKey_ne_illegalCommand (s : State) (a : Nat) :
    (s.loadKey a).2 ≠ some .illegalCommand := by
  obtain ⟨-, h⟩ | ⟨r, -, ⟨-, h⟩ | ⟨priv, crt, -, -, h⟩⟩ := s.loadKey_cases a <;> simp [h]

theorem deriveBody_ne_illegalCommand (s : State) : (deriveBody s).2 ≠ some .illegalCommand := by
  cases h : modInv s.rsaQ.toNat s.rsaP.toNat <;> simp [deriveBody, h]

/-- What R255 asks of a command that ends in `o` from `s`, where its table gives the error `e`. -/
def AdmittedAs (e : Option ErrorKind) (s : State) (o : Host.Outcome State Fault Refusal) : Prop :=
  (∀ k, e = some k → o = .next (s.raise k)) ∧
    (e = none → ∃ t, o = .next t ∧ t.err ≠ some .illegalCommand)

section
variable {s : State} {cs : List (Option ErrorKind)} {body : State → State × Option ErrorKind}

/-- A command without a check of admission, which the table admits in every state. -/
theorem State.command_admittedAs_none (hcs : ∀ c ∈ cs, c ≠ some .illegalCommand)
    (hbody : (body s).2 ≠ some .illegalCommand) : AdmittedAs none s (s.command cs body) := by
  refine ⟨nofun, fun _ => ?_⟩
  obtain ⟨t, ht⟩ := State.command_next s cs body
  refine ⟨t, ht, ?_⟩
  obtain ⟨k, hk, rfl⟩ | ⟨-, rfl⟩ := State.command_cases ht
  · rw [State.raise_err, ← hk]
    exact firstError_ne_of_forall hcs
  · cases hend : (body s).2 with
    | none => simp
    | some k => rwa [State.endWith_some, State.raise_err, ← hend]

/-- A command whose first check is that of admission. -/
theorem State.command_admittedAs {c e : Option ErrorKind} (hc : c = e)
    (hcs : ∀ c ∈ cs, c ≠ some .illegalCommand) (hbody : (body s).2 ≠ some .illegalCommand) :
    AdmittedAs e s (s.command (c :: cs) body) := by
  subst hc
  cases c with
  | none =>
    have hnone : AdmittedAs none s (s.command cs body) := State.command_admittedAs_none hcs hbody
    exact hnone
  | some k => exact ⟨fun _ h => h ▸ State.command_of_error rfl, nofun⟩

end

theorem execRsaVerify_admittedAs (s : State) :
    AdmittedAs (admission .rsaVerify s).error s (execRsaVerify s) := by
  refine State.command_admittedAs (rsaFreeCheck_eq_admission rfl rfl)
    (by simp [rangeCheck_ne_illegalCommand]) ?_
  dsimp only
  split
  next k hk =>
    exact fun hill => s.loadKey_ne_illegalCommand _ (hk.trans hill)
  next => split <;> nofun

theorem execRsaRaw_admittedAs (s : State) :
    AdmittedAs (admission .rsaRaw s).error s (execRsaRaw s) := by
  refine State.command_admittedAs (rsaFreeCheck_eq_admission rfl rfl)
    (by simp [rangeCheck_ne_illegalCommand]) ?_
  dsimp only
  split
  next k hk =>
    exact fun hill => s.loadKey_ne_illegalCommand _ (hk.trans hill)
  next => nofun

/-- Every command meets its row of the table of R255. -/
theorem exec_admittedAs (i : Instr) (s : State) :
    AdmittedAs (admission i s).error s (exec i s) := by
  have blocks : ∀ c ∈ [sizeCheck s, rangeCheck s [(s.src.toNat, s.len.toNat),
      (s.dst.toNat, s.len.toNat)]], c ≠ some .illegalCommand := by
    simp [sizeCheck_ne_illegalCommand, rangeCheck_ne_illegalCommand]
  have range {ranges} : ∀ c ∈ [rangeCheck s ranges], c ≠ some .illegalCommand := by
    simp [rangeCheck_ne_illegalCommand]
  unfold exec
  cases i with
  | ecbInitEnc | ecbInitDec | ctrInit | cbcInitEnc | cbcInitDec =>
    exact State.command_admittedAs (initCheck_eq_admission rfl s) nofun nofun
  | ecbEnc | ecbDec | cbcEnc | cbcDec =>
    exact State.command_admittedAs (useCheck_eq_admission rfl s) blocks nofun
  | ctrSet | ctrAdd imm =>
    exact State.command_admittedAs (useCheck_eq_admission rfl s) nofun nofun
  | ctrBlock ks | ctrStream ks =>
    exact State.command_admittedAs (useCheck_eq_admission rfl s) range nofun
  | sha256 => exact State.command_admittedAs_none range nofun
  | rsaInit =>
    exact State.command_admittedAs (rsaFreeCheck_eq_admission rfl rfl) range
      (s.loadKey_ne_illegalCommand _)
  | rsaVerify => exact execRsaVerify_admittedAs s
  | rsaRaw => exact execRsaRaw_admittedAs s
  | rsaDerive =>
    exact State.command_admittedAs (deriveCheck_eq_admission s) range
      (deriveBody_ne_illegalCommand s)
  | aesRelease =>
    have hok : admission .aesRelease s = .ok := admission_of_modeRow (letter := fun _ => .ok) rfl s
    exact hok ▸ State.command_admittedAs_none nofun nofun
  | rsaRelease =>
    have hok : admission .rsaRelease s = .ok :=
      admission_of_rsaRow (letter := fun _ => .ok) rfl rfl
    exact hok ▸ State.command_admittedAs_none nofun nofun

/-- Settles O14: each command's first check is its row of the table, and neither its other checks
nor its body raise IllegalCommand. -/
theorem admissionTableHolds : Obligations.AdmissionTableHolds := by
  intro i s
  obtain ⟨hrefused, hadmitted⟩ := exec_admittedAs i s
  exact ⟨hrefused, fun hok => hadmitted (hok ▸ rfl)⟩

/-! ### A command commutes with a change of the other sub-state (R251) -/

/-- A command whose checks do not see a change `f` of the state, and whose body and end commute with
it, commutes with it. -/
theorem State.command_commutes {f : State → State} {s t : State} {cs : List (Option ErrorKind)}
    {body : State → State × Option ErrorKind} (hend : ∀ u e, (f u).endWith e = f (u.endWith e))
    (hbody : body (f s) = (f (body s).1, (body s).2)) (h : s.command cs body = .next t) :
    (f s).command cs body = .next (f t) := by
  obtain ⟨k, hk, rfl⟩ | ⟨hc, rfl⟩ := State.command_cases h
  · rw [State.command_of_error hk]
    exact congrArg _ (hend s (some k))
  · rw [State.command_of_checks hc, hbody, hend]

section
variable {s t : State} (r : State) {cs : List (Option ErrorKind)}
  {body : State → State × Option ErrorKind}

theorem State.endWith_withRsaOf (e : Option ErrorKind) :
    (s.withRsaOf r).endWith e = (s.endWith e).withRsaOf r := by cases e <;> rfl

theorem State.endWith_withAesOf (e : Option ErrorKind) :
    (s.withAesOf r).endWith e = (s.endWith e).withAesOf r := by cases e <;> rfl

theorem State.command_withRsaOf
    (hbody : body (s.withRsaOf r) = ((body s).1.withRsaOf r, (body s).2))
    (h : s.command cs body = .next t) :
    (s.withRsaOf r).command cs body = .next (t.withRsaOf r) :=
  State.command_commutes (f := (·.withRsaOf r)) (fun _ => State.endWith_withRsaOf r) hbody h

theorem State.command_withAesOf
    (hbody : body (s.withAesOf r) = ((body s).1.withAesOf r, (body s).2))
    (h : s.command cs body = .next t) :
    (s.withAesOf r).command cs body = .next (t.withAesOf r) :=
  State.command_commutes (f := (·.withAesOf r)) (fun _ => State.endWith_withAesOf r) hbody h

end

section
variable (s r : State)

@[simp] theorem State.withAesOf_mem : (s.withAesOf r).mem = s.mem := rfl
@[simp] theorem State.withAesOf_keyptr : (s.withAesOf r).keyptr = s.keyptr := rfl

@[simp] theorem State.publicTransform_withAesOf (a : Nat) :
    (s.withAesOf r).publicTransform a = s.publicTransform a := rfl

@[simp] theorem State.releaseRsa_withAesOf :
    (s.withAesOf r).releaseRsa = s.releaseRsa.withAesOf r := rfl

@[simp] theorem State.setMem_withAesOf (m : Memory) :
    (s.withAesOf r).setMem m = (s.setMem m).withAesOf r := rfl

@[simp] theorem State.setCrt_withAesOf (dp dq qp : Nat) :
    (s.withAesOf r).setCrt dp dq qp = (s.setCrt dp dq qp).withAesOf r := rfl

theorem State.acceptKey_withAesOf (k : KeyRecord) :
    (s.withAesOf r).acceptKey k = ((s.acceptKey k).1.withAesOf r, (s.acceptKey k).2) := by
  unfold State.acceptKey
  split
  · split <;> rfl
  · rfl

theorem ctrStreamBody_withRsaOf (ks : Bool) :
    ctrStreamBody ks (s.withRsaOf r) = (ctrStreamBody ks s).withRsaOf r := by
  by_cases h : s.len.toNat % 16 = 0
  · rw [ctrStreamBody_of_whole ks h, ctrStreamBody_of_whole (s := s.withRsaOf r) ks h]
    rfl
  · rw [ctrStreamBody_of_tail ks h, ctrStreamBody_of_tail (s := s.withRsaOf r) ks h]
    rfl

/-- A load reads the key record and writes RSA registers only (R213). -/
theorem State.loadKey_withAesOf (a : Nat) :
    (s.withAesOf r).loadKey a = ((s.loadKey a).1.withAesOf r, (s.loadKey a).2) := by
  unfold State.loadKey
  rw [State.withAesOf_mem]
  split
  · rfl
  · exact s.acceptKey_withAesOf r _

theorem deriveBody_withAesOf :
    deriveBody (s.withAesOf r) = ((deriveBody s).1.withAesOf r, (deriveBody s).2) := by
  cases h : modInv s.rsaQ.toNat s.rsaP.toNat with
  | none => rw [deriveBody_of_none h, deriveBody_of_none (s := s.withAesOf r) h]
  | some qp =>
    rw [deriveBody_of_some h, deriveBody_of_some (s := s.withAesOf r) h, State.setCrt_withAesOf,
      State.setMem_withAesOf]
    rfl

end

section
variable {s t : State} (r : State)

/-- AES commands and SHA256 take no part in the RSA sub-state. -/
theorem exec_withRsaOf {i : Instr} (hi : isAesCommand i = true ∨ i = .sha256)
    (h : exec i s = .next t) : exec i (s.withRsaOf r) = .next (t.withRsaOf r) := by
  unfold exec at h ⊢
  cases i with
  | rsaInit | rsaVerify | rsaRaw | rsaDerive | rsaRelease => exact absurd hi (by decide)
  | ctrStream ks =>
    exact State.command_withRsaOf r (congrArg (·, none) (ctrStreamBody_withRsaOf s r ks)) h
  | ecbInitEnc | ecbInitDec | ecbEnc | ecbDec | sha256 | ctrInit | ctrSet | ctrAdd imm
  | ctrBlock ks | cbcInitEnc | cbcInitDec | cbcEnc | cbcDec | aesRelease =>
    exact State.command_withRsaOf r rfl h

theorem execRsaVerify_withAesOf (h : execRsaVerify s = .next t) :
    execRsaVerify (s.withAesOf r) = .next (t.withAesOf r) := by
  refine State.command_withAesOf r ?_ h
  simp only [State.loadKey_withAesOf, State.withAesOf_keyptr]
  generalize s.loadKey s.keyptr.toNat = loaded
  split
  · rfl
  · rfl

theorem execRsaRaw_withAesOf (h : execRsaRaw s = .next t) :
    execRsaRaw (s.withAesOf r) = .next (t.withAesOf r) := by
  refine State.command_withAesOf r ?_ h
  simp only [State.loadKey_withAesOf, State.withAesOf_keyptr]
  generalize s.loadKey s.keyptr.toNat = loaded
  split
  · rfl
  · rw [State.publicTransform_withAesOf, State.releaseRsa_withAesOf, State.setMem_withAesOf]
    rfl

/-- RSA commands and SHA256 take no part in the AES sub-state and the staging registers. -/
theorem exec_withAesOf {i : Instr} (hi : isRsaCommand i = true ∨ i = .sha256)
    (h : exec i s = .next t) : exec i (s.withAesOf r) = .next (t.withAesOf r) := by
  unfold exec at h ⊢
  cases i with
  | ecbInitEnc | ecbInitDec | ecbEnc | ecbDec | ctrInit | ctrSet | ctrBlock ks | ctrStream ks
  | cbcInitEnc | cbcInitDec | cbcEnc | cbcDec | aesRelease | ctrAdd imm =>
    obtain hi | hi := hi <;> cases hi
  | sha256 | rsaRelease => exact State.command_withAesOf r rfl h
  | rsaInit => exact State.command_withAesOf r (s.loadKey_withAesOf r _) h
  | rsaVerify => exact execRsaVerify_withAesOf r h
  | rsaRaw => exact execRsaRaw_withAesOf r h
  | rsaDerive => exact State.command_withAesOf r (deriveBody_withAesOf s r) h

end

/-- Settles O18: a command commutes with a change of the other sub-state, and leaves that sub-state
as it was, since it commutes with the change that is none. -/
theorem aesAndRsaAreIndependent : Obligations.AesAndRsaAreIndependent := by
  intro i s r t h
  exact ⟨fun hi => ⟨Host.Outcome.next.inj ((exec_withRsaOf s hi h).symm.trans h),
      exec_withRsaOf r hi h⟩,
    fun hi => ⟨Host.Outcome.next.inj ((exec_withAesOf s hi h).symm.trans h),
      exec_withAesOf r hi h⟩⟩

end Sys2Proof.Machine

/-! ## How commands end

60_exceptions.md R262 to R265: every command ends with STATUS.OK and ERR in agreement; one that ends
with an error has changed nothing else, but for RSA_INIT on an invalid key; no command reads the result
of the one before it, so a repeated failure repeats; and the checks are made in their order. -/

namespace Sys2Proof.Machine

/-! ### STATUS.OK and ERR agree (R23, R262) -/

/-- No error kind has the code 0 (R260). -/
theorem State.errWord_eq_zero_iff (s : State) : s.errWord = 0 ↔ s.err = none := by
  unfold State.errWord
  cases s.err with
  | none => simp
  | some k => cases k <;> simp [ErrorKind.code]

theorem State.endWith_ok_iff (s : State) (e : Option ErrorKind) :
    (s.endWith e).ok = true ↔ (s.endWith e).err = none := by cases e <;> simp

theorem CommandEffect.ok_iff {s t : State} {i : Instr} (h : CommandEffect s i t) :
    t.ok = true ↔ t.err = none := by
  cases h with
  | raised k | rejectedKey r => exact State.endWith_ok_iff _ (some _)
  | releasedRsa m e => exact State.endWith_ok_iff _ e
  | initEcb | initCtr | initCbc | wroteMem | movedCtr | movedIv | acceptedKey | derivedCrt
  | releasedAes => exact State.endWith_ok_iff _ none

/-- Settles O11: each effect a command can have ends with R262. -/
theorem everyCommandEndsWithItsResult : Obligations.EveryCommandEndsWithItsResult := by
  intro i s
  obtain ⟨t, ht⟩ := exec_next i s
  have hok : t.ok = true ↔ t.err = none := (exec_effect ht).ok_iff
  exact ⟨t, ht, hok, hok.trans t.errWord_eq_zero_iff.symm⟩

/-! ### An error leaves the rest of the state (R263) -/

section
variable {s t : State} {k : ErrorKind} {cs : List (Option ErrorKind)}
  {body : State → State × Option ErrorKind}

/-- The two sources of an error: a check, or what the body met. -/
theorem State.command_err_cases (h : s.command cs body = .next t) (hk : t.err = some k) :
    firstError cs = some k ∧ t = s.raise k ∨
      firstError cs = none ∧ (body s).2 = some k ∧ t = (body s).1.raise k := by
  obtain ⟨k', hcs, rfl⟩ | ⟨hcs, rfl⟩ := State.command_cases h
  · obtain rfl : k' = k := Option.some.inj hk
    exact .inl ⟨hcs, rfl⟩
  · cases hbody : (body s).2 with
    | none => simp [hbody] at hk
    | some k' =>
      rw [hbody] at hk
      obtain rfl : k' = k := Option.some.inj hk
      exact .inr ⟨hcs, rfl, rfl⟩

/-- A command whose body keeps the state where it meets an error changes the result only. -/
theorem State.command_err (h : s.command cs body = .next t) (hk : t.err = some k)
    (hbody : firstError cs = none → (body s).2 = some k → (body s).1 = s) : t = s.raise k := by
  obtain ⟨-, rfl⟩ | ⟨hcs, herr, rfl⟩ := State.command_err_cases h hk
  · rfl
  · rw [hbody hcs herr]

/-- A load that fails to parse changes nothing (R213). -/
theorem State.loadKey_keeps_of_err {a : Nat} (h : (s.loadKey a).2 = some k)
    (hk : k ≠ .keyValidationFailed) : (s.loadKey a).1 = s := by
  obtain ⟨-, hl⟩ | ⟨r, -, ⟨-, hl⟩ | ⟨priv, crt, -, -, hl⟩⟩ := s.loadKey_cases a
  · rw [hl]
  · rw [hl] at h; exact absurd (Option.some.inj h).symm hk
  · rw [hl] at h; cases h

/-- Without an inverse of Q nothing is committed (R221). -/
theorem deriveBody_keeps_of_err (h : (deriveBody s).2 = some k) : (deriveBody s).1 = s := by
  cases hq : modInv s.rsaQ.toNat s.rsaP.toNat with
  | none => rw [deriveBody_of_none hq]
  | some qp => rw [deriveBody_of_some hq] at h; cases h

/-- A release of an empty sub-state changes nothing (R218, R24). -/
theorem State.RsaZero.releaseRsa (hz : s.RsaZero) (hu : s.rsast = .uninit) : s.releaseRsa = s := by
  obtain ⟨hn, he, hd, hp, hq, hdp, hdq, hqp, hpriv, hcrt⟩ := hz
  cases s
  simp_all only [State.releaseRsa]

/-- What RSA_VERIFY and RSA_RAW release was empty before they loaded it (R210, R219, R220). -/
theorem State.RsaInv.releaseRsa_of_rsaChecks (hs : s.RsaInv)
    (hcs : firstError (rsaFreeCheck s :: cs) = none) : s.releaseRsa = s :=
  have hu : s.rsast = .uninit := (rsaFreeCheck_eq_none_iff s).1 (firstError_cons_eq_none hcs)
  (hs.uninit hu).releaseRsa hu

theorem execRsaVerify_err (hs : s.RsaInv) (h : execRsaVerify s = .next t) (hk : t.err = some k) :
    t = s.raise k := by
  refine State.command_err h hk fun hcs _ => ?_
  simp only [State.releaseRsa_loadKey, hs.releaseRsa_of_rsaChecks hcs]
  split <;> rfl

theorem execRsaRaw_err (hs : s.RsaInv) (h : execRsaRaw s = .next t) (hk : t.err = some k) :
    t = s.raise k := by
  refine State.command_err h hk fun hcs => ?_
  simp only [State.releaseRsa_loadKey, hs.releaseRsa_of_rsaChecks hcs]
  split
  · exact fun _ => rfl
  · exact nofun

/-- R263 for every command but the RSA_INIT that loads an invalid key. -/
theorem exec_err {i : Instr} (hs : s.RsaInv) (h : exec i s = .next t) (hk : t.err = some k)
    (hi : ¬(i = .rsaInit ∧ k = .keyValidationFailed)) : t = s.raise k := by
  unfold exec at h
  cases i with
  | rsaInit =>
    exact State.command_err h hk fun _ hl =>
      State.loadKey_keeps_of_err hl fun hkey => hi ⟨rfl, hkey⟩
  | rsaVerify => exact execRsaVerify_err hs h hk
  | rsaRaw => exact execRsaRaw_err hs h hk
  | rsaDerive => exact State.command_err h hk fun _ => deriveBody_keeps_of_err
  | ecbInitEnc | ecbInitDec | ecbEnc | ecbDec | sha256 | ctrInit | ctrSet | ctrAdd imm
  | ctrBlock ks | ctrStream ks | cbcInitEnc | cbcInitDec | cbcEnc | cbcDec | aesRelease
  | rsaRelease => exact State.command_err h hk fun _ => nofun

end

/-- KeyValidationFailed ends RSA_INIT only after the load of an invalid key (R213, R216). -/
theorem exec_rsaInit_keyValidationFailed {s t : State} (h : exec .rsaInit s = .next t)
    (hk : t.err = some .keyValidationFailed) :
    ∃ r, t = ((s.loadFields r).setRsaStatus .invalid false false).raise .keyValidationFailed := by
  unfold exec at h
  obtain ⟨hcs, -⟩ | ⟨-, hl, rfl⟩ := State.command_err_cases h hk
  · have hfree : rsaFreeCheck s ≠ some .keyValidationFailed := by unfold rsaFreeCheck; split <;> simp
    have hrange (ranges) : rangeCheck s ranges ≠ some .keyValidationFailed := by
      obtain h | h := rangeCheck_cases s ranges <;> simp [h]
    exact absurd hcs (firstError_ne_of_forall (by simp [hfree, hrange]))
  · obtain ⟨-, hload⟩ | ⟨r, -, ⟨-, hload⟩ | ⟨priv, crt, -, -, hload⟩⟩ :=
      s.loadKey_cases s.keyptr.toNat
    · rw [hload] at hl; cases hl
    · exact ⟨r, by rw [hload]⟩
    · rw [hload] at hl; cases hl

/-- Settles O12: a body that meets an error keeps the state, or has released what was empty before;
the one exception is the load of an invalid key. -/
theorem erringCommandsChangeOnlyTheResult : Obligations.ErringCommandsChangeOnlyTheResult := by
  refine ⟨fun i s t k hs h hk hi => exec_err hs h hk hi, fun s t h hk => ?_⟩
  obtain ⟨r, rfl⟩ := exec_rsaInit_keyValidationFailed h hk
  exact ⟨rfl, rfl, rfl, rfl⟩

/-! ### The result of an earlier command is not read (R265) -/

section
variable (s : State) (k : ErrorKind)

theorem State.endWith_raise (e : Option ErrorKind) : (s.raise k).endWith e = s.endWith e := by
  cases e <;> rfl

theorem State.releaseRsa_raise : (s.raise k).releaseRsa = s.releaseRsa.raise k := rfl

theorem State.setMem_raise (m : Memory) : (s.raise k).setMem m = (s.setMem m).raise k := rfl

theorem State.setCrt_raise (dp dq qp : Nat) :
    (s.raise k).setCrt dp dq qp = (s.setCrt dp dq qp).raise k := rfl

theorem State.publicTransform_raise (a : Nat) :
    (s.raise k).publicTransform a = s.publicTransform a := rfl

/-- A command whose body passes on an earlier result unread runs as if there were none. -/
theorem State.command_raise {cs : List (Option ErrorKind)} {body : State → State × Option ErrorKind}
    (hbody : body (s.raise k) = ((body s).1.raise k, (body s).2)) :
    (s.raise k).command cs body = s.command cs body := by
  cases hcs : firstError cs with
  | some k' =>
    rw [State.command_of_error hcs, State.command_of_error hcs]
    rfl
  | none =>
    rw [State.command_of_checks hcs, State.command_of_checks hcs, hbody, State.endWith_raise]

theorem ctrStreamBody_raise (ks : Bool) :
    ctrStreamBody ks (s.raise k) = (ctrStreamBody ks s).raise k := by
  by_cases h : s.len.toNat % 16 = 0
  · rw [ctrStreamBody_of_whole ks h, ctrStreamBody_of_whole (s := s.raise k) ks h]
    rfl
  · rw [ctrStreamBody_of_tail ks h, ctrStreamBody_of_tail (s := s.raise k) ks h]
    rfl

theorem State.loadKey_raise (a : Nat) :
    (s.raise k).loadKey a = ((s.loadKey a).1.raise k, (s.loadKey a).2) := by
  unfold State.loadKey State.acceptKey
  rw [State.raise_mem]
  split
  · rfl
  · split
    · split <;> rfl
    · rfl

theorem deriveBody_raise :
    deriveBody (s.raise k) = ((deriveBody s).1.raise k, (deriveBody s).2) := by
  cases h : modInv s.rsaQ.toNat s.rsaP.toNat with
  | none => rw [deriveBody_of_none h, deriveBody_of_none (s := s.raise k) h]
  | some qp =>
    rw [deriveBody_of_some h, deriveBody_of_some (s := s.raise k) h, State.setCrt_raise,
      State.setMem_raise]
    rfl

theorem execRsaVerify_raise : execRsaVerify (s.raise k) = execRsaVerify s := by
  refine State.command_raise s k ?_
  simp only [State.loadKey_raise, State.raise_keyptr]
  generalize s.loadKey s.keyptr.toNat = loaded
  split <;> rfl

theorem execRsaRaw_raise : execRsaRaw (s.raise k) = execRsaRaw s := by
  refine State.command_raise s k ?_
  simp only [State.loadKey_raise, State.raise_keyptr]
  generalize s.loadKey s.keyptr.toNat = loaded
  split
  · rfl
  · rw [State.publicTransform_raise, State.releaseRsa_raise, State.setMem_raise]
    rfl

/-- No command reads STATUS.OK or ERR, and each writes both. -/
theorem exec_raise (i : Instr) : exec i (s.raise k) = exec i s := by
  unfold exec
  cases i with
  | ctrStream ks =>
    exact State.command_raise s k (congrArg (·, none) (ctrStreamBody_raise s k ks))
  | rsaInit => exact State.command_raise s k (s.loadKey_raise k _)
  | rsaVerify => exact execRsaVerify_raise s k
  | rsaRaw => exact execRsaRaw_raise s k
  | rsaDerive => exact State.command_raise s k (deriveBody_raise s k)
  | ecbInitEnc | ecbInitDec | ecbEnc | ecbDec | sha256 | ctrInit | ctrSet | ctrAdd imm
  | ctrBlock ks | cbcInitEnc | cbcInitDec | cbcEnc | cbcDec | aesRelease | rsaRelease =>
    exact State.command_raise s k rfl

end

/-- Settles O13: after a failure that changed the result only, the command meets the state it met
before; after the load of an invalid key the RSA sub-state is no longer free. -/
theorem retryReproducesTheFailure : Obligations.RetryReproducesTheFailure := by
  refine ⟨fun i s t k hs h hk hi => ?_, fun s t h hk => ?_⟩
  · obtain rfl := exec_err hs h hk hi
    rw [exec_raise, h]
  · obtain ⟨r, rfl⟩ := exec_rsaInit_keyValidationFailed h hk
    exact (admissionTableHolds .rsaInit _).1 .illegalCommand rfl

/-! ### The order of the checks (R264) -/

theorem isBacked_iff (backed : List Region) (a : Nat) :
    isBacked backed a = true ↔ ∃ r ∈ backed, r.base ≤ a ∧ a < r.base + r.size := by
  simp [isBacked]

section
variable {s : State} {c : Option ErrorKind} {cs : List (Option ErrorKind)}
  {ranges : List (Nat × Nat)} {body : State → State × Option ErrorKind}

theorem rangeCheck_of_bad (h : ∃ r ∈ ranges, rangeOK s.backed r.1 r.2 = false) :
    rangeCheck s ranges = some .accessFault := by
  obtain ⟨r, hr, hbad⟩ := h
  refine (rangeCheck_cases s ranges).resolve_left fun hnone => ?_
  simp [(rangeCheck_eq_none_iff s ranges).1 hnone r hr] at hbad

/-- Behind a check of admission that passes, a bad range ends the command. -/
theorem State.command_of_badRange (hc : c = none)
    (hbad : ∃ r ∈ ranges, rangeOK s.backed r.1 r.2 = false) :
    s.command [c, rangeCheck s ranges] body = .next (s.raise .accessFault) := by
  refine State.command_of_error ?_
  rw [hc, rangeCheck_of_bad hbad, firstError_cons_none, firstError_cons_some]

/-- In its MODE a block command reports a bad size whatever its ranges, and bad ranges next. -/
theorem State.command_blockChecks {m : Mode} (hm : m ≠ .none) (hmode : s.mode = m) :
    (s.len.toNat % 16 ≠ 0 →
      s.command (blockChecks m s) body = .next (s.raise .invalidInputSize)) ∧
    (s.len.toNat % 16 = 0 → rangeOK s.backed s.src.toNat s.len.toNat = false ∨
        rangeOK s.backed s.dst.toNat s.len.toNat = false →
      s.command (blockChecks m s) body = .next (s.raise .accessFault)) := by
  have huse : useCheck m s = none := (useCheck_eq_none_iff hm s).2 hmode
  refine ⟨fun hlen => State.command_of_error ?_, fun hlen hbad => State.command_of_error ?_⟩
  · have hsize : sizeCheck s = some .invalidInputSize :=
      (sizeCheck_cases s).resolve_left (mt (sizeCheck_eq_none_iff s).1 hlen)
    rw [blockChecks, huse, hsize, firstError_cons_none, firstError_cons_some]
  · rw [blockChecks, huse, (sizeCheck_eq_none_iff s).2 hlen, rangeCheck_of_bad (by simpa using hbad),
      firstError_cons_none, firstError_cons_none, firstError_cons_some]

theorem exec_blocks_checks {p : Mode × Instr}
    (hp : p ∈ [(.ecbEnc, .ecbEnc), (.ecbDec, .ecbDec), (.cbcEnc, .cbcEnc), (.cbcDec, .cbcDec)])
    (hmode : s.mode = p.1) :
    (s.len.toNat % 16 ≠ 0 → exec p.2 s = .next (s.raise .invalidInputSize)) ∧
    (s.len.toNat % 16 = 0 → rangeOK s.backed s.src.toNat s.len.toNat = false ∨
        rangeOK s.backed s.dst.toNat s.len.toNat = false →
      exec p.2 s = .next (s.raise .accessFault)) := by
  obtain rfl | rfl | rfl | rfl : p = _ ∨ p = _ ∨ p = _ ∨ p = _ := by simpa using hp
  all_goals
    unfold exec
    exact State.command_blockChecks (by decide) hmode

theorem exec_sha256_of_badRange (hbad : rangeOK s.backed s.src.toNat s.len.toNat = false ∨
    rangeOK s.backed s.dst.toNat 32 = false) : exec .sha256 s = .next (s.raise .accessFault) := by
  unfold exec
  refine State.command_of_error ?_
  rw [rangeCheck_of_bad (by simpa using hbad), firstError_cons_some]

theorem dst_mem_ctrRanges (ks : Bool) (n : Nat) : (s.dst.toNat, n) ∈ ctrRanges ks n s := by
  cases ks <;> simp [ctrRanges]

theorem src_mem_ctrRanges (n : Nat) : (s.src.toNat, n) ∈ ctrRanges false n s := by
  simp [ctrRanges]

theorem exec_ctrBlock_of_badRange {ks : Bool} (hmode : s.mode = .ctr) {r : Nat × Nat}
    (hr : r ∈ ctrRanges ks 16 s) (hbad : rangeOK s.backed r.1 r.2 = false) :
    exec (.ctrBlock ks) s = .next (s.raise .accessFault) := by
  unfold exec
  exact State.command_of_badRange ((useCheck_eq_none_iff (by decide) s).2 hmode) ⟨r, hr, hbad⟩

theorem exec_ctrStream_of_badRange {ks : Bool} (hmode : s.mode = .ctr) {r : Nat × Nat}
    (hr : r ∈ ctrRanges ks s.len.toNat s) (hbad : rangeOK s.backed r.1 r.2 = false) :
    exec (.ctrStream ks) s = .next (s.raise .accessFault) := by
  unfold exec
  exact State.command_of_badRange ((useCheck_eq_none_iff (by decide) s).2 hmode) ⟨r, hr, hbad⟩

/-- The commands that load a key check the range of its record, and their other ranges, before they
look at it (R216, R219, R220). -/
theorem exec_load_of_badRange (hfree : s.rsast = .uninit) :
    (rangeOK s.backed s.keyptr.toNat 1176 = false →
      exec .rsaInit s = .next (s.raise .accessFault)) ∧
    (rangeOK s.backed s.keyptr.toNat 1176 = false ∨ rangeOK s.backed s.src.toNat 256 = false ∨
        rangeOK s.backed s.aux.toNat 32 = false →
      exec .rsaVerify s = .next (s.raise .accessFault)) ∧
    (rangeOK s.backed s.keyptr.toNat 1176 = false ∨ rangeOK s.backed s.src.toNat 256 = false ∨
        rangeOK s.backed s.dst.toNat 256 = false →
      exec .rsaRaw s = .next (s.raise .accessFault)) := by
  have hadmit : rsaFreeCheck s = none := (rsaFreeCheck_eq_none_iff s).2 hfree
  unfold exec
  exact ⟨fun hbad => State.command_of_badRange hadmit (by simpa [Config.keyRecordLen] using hbad),
    fun hbad => State.command_of_badRange hadmit (by simpa [Config.keyRecordLen] using hbad),
    fun hbad => State.command_of_badRange hadmit (by simpa [Config.keyRecordLen] using hbad)⟩

theorem exec_rsaDerive_of_badRange (hvalid : s.rsast = .valid) (hpriv : s.hasPriv = true)
    (hbad : rangeOK s.backed s.dst.toNat 384 = false) :
    exec .rsaDerive s = .next (s.raise .accessFault) := by
  unfold exec
  exact State.command_of_badRange ((deriveCheck_eq_none_iff s).2 ⟨hvalid, hpriv⟩) (by simpa using hbad)

end

/-- Settles O15: the first check that fails is the error, and the body does not run. -/
theorem checksAreMadeInOrder : Obligations.ChecksAreMadeInOrder := by
  refine ⟨fun backed a n => ⟨rangeOK_iff backed a n, isBacked_iff backed a⟩, ?_⟩
  intro s stops bad src dst len
  exact ⟨fun _ hp hmode => exec_blocks_checks hp hmode, exec_sha256_of_badRange,
    fun hmode => ⟨fun hbad ks => exec_ctrBlock_of_badRange hmode (dst_mem_ctrRanges ks 16) hbad,
      exec_ctrBlock_of_badRange hmode (src_mem_ctrRanges 16),
      fun hbad ks => exec_ctrStream_of_badRange hmode (dst_mem_ctrRanges ks len) hbad,
      exec_ctrStream_of_badRange hmode (src_mem_ctrRanges len)⟩,
    exec_load_of_badRange, exec_rsaDerive_of_badRange⟩

end Sys2Proof.Machine
